-- ==== Sys2Proof/Word.lean ====
section
/-! DEFINITION. The word types of the block: every access moves one byte (spec/20_memory.md R55, R58), a column
mask and a row word are five bits (spec/30_encoding.md R92, R93), a display-RAM address seven (R89). -/

namespace Sys2Proof

/-- One byte: the data bus is eight bits wide (spec/00_scope.md R7, `DATA_W`). -/
abbrev Byte := BitVec 8

/-- A five-bit keypad word: bit `r` of a row word is row `r`, bit `c` of a column mask is column `c`
(spec/20_memory.md R56). -/
abbrev KeyWord := BitVec 5

/-- The pin word `RS, RW, E, D[7:0]` of the LCD bus, format `BUSW` (spec/30_encoding.md R81). -/
abbrev PinWord := BitVec 11

/-- The pressed-key pattern of the 5x5 matrix, one bit per key; bit `5*row + col` is the key at `(row, col)`, the
key code of spec/30_encoding.md R94. -/
abbrev KeyMatrix := BitVec 25

end Sys2Proof
end

