-- ==== Sys2Proof/Config.lean ====
section
/-! DEFINITION. The parameters of spec/00_scope.md R7 and R8: the constants the spec fixes, the parameters it
decides, the parameters it leaves OPEN, and the free values (opaque constants: nothing can be proved of their
values). -/

namespace Sys2Proof.Config

/-! ### Fixed by the document (R7; a model may not vary them, spec/70_reset_and_hazards.md R272) -/

/-- `CONFIRM_CAP`: re-samples of the confirmation loop (R7, R165). -/
def confirmCap : Nat := 100

/-- `RELEASE_COUNT`: consecutive all-zero samples that end the release-confirmation loop (R7, R170). -/
def releaseCount : Nat := 100

/-- `LINE0_ADDR` (R7, R60). -/
def line0Addr : Byte := 0x00#8

/-- `LINE1_ADDR` (R7, R60). -/
def line1Addr : Byte := 0x40#8

/-! ### Decided by the spec (R8; spec/92_eei_decisions.md D4, D9, D10, D11, D28); kept by name everywhere -/

/-- `OP_FUNCTION_SET` (R8, R88). -/
def opFunctionSet : Byte := 0x3C#8

/-- `OP_DISPLAY_CONTROL` (R8, R87). -/
def opDisplayControl : Byte := 0x0C#8

/-- `OP_CLEAR_DISPLAY` (R8, R84). -/
def opClearDisplay : Byte := 0x01#8

/-- `OP_ENTRY_MODE` (R8, R86). -/
def opEntryMode : Byte := 0x06#8

/-- `OP_RETURN_HOME` (R8, R85). -/
def opReturnHome : Byte := 0x02#8

/-- `OP_SET_DDRAM`, OR-ed with the seven-bit address (R8, R89). -/
def opSetDdram : Byte := 0x80#8

/-- `RS_INSTR`: the register-select level of the instruction and status register (R8, D4). -/
def rsInstr : Bool := false

/-- `RS_DATA`: the register-select level of the data register (R8, D4). -/
def rsData : Bool := true

/-- `RW_WRITE` (R8, D4). -/
def rwWrite : Bool := false

/-- `RW_READ` (R8, D4). -/
def rwRead : Bool := true

/-- `TERMINATOR`: the byte that ends a `writeLine` text (R8, D11). -/
def terminator : Byte := 0x00#8

/-- `CHARMAP`: from a text character to the byte sent (R8, R91, D11): the identity. -/
def charmap (c : Byte) : Byte := c

/-- `T_BANNER`: the pause after the banner, in units of `T_SCAN` (R8, D28). -/
def tBanner : Nat := 2000

/-- What a display-RAM cell that nothing has written holds in the reference LCD (spec/20_memory.md R70). -/
def blankCell : Byte := 0x20#8

/-! ### OPEN (R8): no value is chosen, nothing proved depends on one -/

/-- `T_BUS`, the duration of the bus primitive's time unit (R8, D8). -/
opaque tBus : Nat

/-- `T_SCAN`, the duration of the scanner's time unit (R8, D8). -/
opaque tScan : Nat

/-- `LCD_COLS`, the character positions of one display line (R8, D12), where the environment gives none. -/
opaque lcdCols : Nat

/-- The text of `BANNER` (R8, R202, D28). -/
opaque bannerText : List Byte

/-- `BANNER_LINE` (R8, R202, D28). -/
opaque bannerLine : Fin 2

/-- `BANNER` as R202 takes it: pairs of a line and a text, written in order; one pair, only its line and its text
OPEN. -/
def banner : List (Fin 2 × List Byte) := [(bannerLine, bannerText)]

/-! ### Free values: what the environment answers, and what the spec leaves unspecified -/

/-- `LcdOracle(rs, rw, e)` at its `n`-th draw: any byte (spec/10_state.md R24, spec/20_memory.md R68). -/
opaque lcdOracle : Nat → Bool → Bool → Bool → Byte

/-- `KeyOracle(ROWOUT)` at its `n`-th draw: any raw column word (spec/20_memory.md R67, R68). -/
opaque keyOracle : Nat → KeyWord → Byte

/-- `MASK` at the completion of a scan cycle: any value (spec/10_state.md R30, D17, U9). -/
opaque freeMask : Nat → KeyWord

/-- `CNT` at the completion of a scan cycle: any value (spec/10_state.md R32, D17, U9). -/
opaque freeCount : Nat → BitVec 7

/-- The address pointer of an LCD of which the spec does not say it, by the bytes given to the LCD and the breaches of
the bus discipline so far: past an end of a line (spec/20_memory.md R52; spec/91_not_in_source.md N9), after a byte of
spec/30_encoding.md R99, after a breach (U3, U4, U6). Any value. -/
opaque lcdPointer : List (Bool × Byte) → Nat → BitVec 7

/-- A display-RAM cell of such an LCD, by the bytes, the breaches and its address. Any value. -/
opaque lcdCell : List (Bool × Byte) → Nat → Nat → Byte

/-- The eight settings of such an LCD, by the bytes and the breaches. Any value. -/
opaque lcdSettings : List (Bool × Byte) → Nat → BitVec 8

/-- `position_of_set_bit` of a mask with two or more bits set: any value 0 to 4
(spec/42_keypad_scanner.md R168, D18, U5). -/
opaque freePosition : Nat → KeyWord → Fin 5

end Sys2Proof.Config
end

