-- ==== Sys2Proof/Machine/Collaborator.lean ====
section
/-! DEFINITION. The key-event collaborator's interface (spec/43_dispatch_and_glue.md R200): a table from key code to
a finite program over the LCD driver's operations, and the default table of R201. -/

namespace Sys2Proof.Machine

/-- A call of one of the seven LCD driver operations (spec/41_lcd_driver.md R133 to R139). A collaborator can call
nothing else: that it uses only LCD driver operations (R200) holds by this type. -/
inductive LcdCall where
  | waitReady
  | writeInstruction (code : Byte)
  | writeData (byte : Byte)
  | initializeLcd
  | writeLine (lineIndex : Nat) (text : List Byte)
  | writeChar (c : Byte)
  | clear
  deriving DecidableEq, Repr

/-- One row of the dispatch table: a key code and the program it starts. -/
structure DispatchRow where
  key   : Nat
  calls : List LcdCall
  deriving DecidableEq, Repr

/-- The default table, R201: codes 2, 6, 7, 8, 11, 12, 13, 16, 17, 18 print the digits 0 to 9 (bytes 0x30 to 0x39,
spec/30_encoding.md R91) and code 24 clears. -/
def defaultDispatch : List DispatchRow :=
  [⟨2, [.writeChar 0x30#8]⟩, ⟨6, [.writeChar 0x31#8]⟩, ⟨7, [.writeChar 0x32#8]⟩,
   ⟨8, [.writeChar 0x33#8]⟩, ⟨11, [.writeChar 0x34#8]⟩, ⟨12, [.writeChar 0x35#8]⟩,
   ⟨13, [.writeChar 0x36#8]⟩, ⟨16, [.writeChar 0x37#8]⟩, ⟨17, [.writeChar 0x38#8]⟩,
   ⟨18, [.writeChar 0x39#8]⟩, ⟨24, [.clear]⟩]

/-- The program a table gives a key code; a code it does not list is a no-op (R200). -/
def dispatchProgram : List DispatchRow → Nat → List LcdCall
  | [], _ => []
  | row :: rows, k => if row.key = k then row.calls else dispatchProgram rows k

end Sys2Proof.Machine
end

