-- ==== Sys2Proof/Syntax.lean ====
section
/-! DEFINITION. The instructions: one constructor per row of spec/opcode_table.json. Sixteen are host commands
(format CMD, spec/30_encoding.md R95, R96), executed by the block; eight are bytes of the LCD bus (formats LCDI,
LCDS, LCDD, R84 to R91), executed where the bus carries them. -/

namespace Sys2Proof

/-- A host command as it is presented: the twelve-bit word `CMD[11:0]` and the text that accompanies `writeLine`
as a finite list of bytes (spec/30_encoding.md R95, R102). -/
structure HostCommand where
  word : BitVec 12
  text : List Byte
  deriving DecidableEq, Repr

/-- The instructions of the opcode table. -/
inductive Instr where
  /-- `setControlLines(rs, rw, e)`, R110. -/
  | setControlLines (rs rw e : Bool)
  /-- `driveData(byte)`, R111. -/
  | driveData (byte : Byte)
  /-- `readData() -> byte`, R112. -/
  | readData
  /-- `releaseData()`, R113. -/
  | releaseData
  /-- `delayBus(n)`, R114. -/
  | delayBus (n : Byte)
  /-- `waitReady()`, R133. -/
  | waitReady
  /-- `writeInstruction(code)`, R134. -/
  | writeInstruction (code : Byte)
  /-- `writeData(byte)`, R135. -/
  | writeData (byte : Byte)
  /-- `initialize()`, R136 (the bare word is one of Lean's own). -/
  | initializeLcd
  /-- `writeLine(lineIndex, text)`, R137; as a call the index may be any number (spec/95_test_vectors.md X3). -/
  | writeLine (lineIndex : Nat) (text : List Byte)
  /-- `writeChar(c)`, R138. -/
  | writeChar (c : Byte)
  /-- `clear()`, R139. -/
  | clear
  /-- `scanCycle()`, R173. -/
  | scanCycle
  /-- `keyEvent(k)`, R201. -/
  | keyEvent (k : BitVec 5)
  /-- `startup()`, R202. -/
  | startup
  /-- A reserved command word, R98. -/
  | reserved (word : BitVec 12)
  /-- LCD byte `00000001`, R84. -/
  | clearDisplay
  /-- LCD byte `0000001x`, R85. -/
  | returnHome (x : Bool)
  /-- LCD byte `000001is`, R86. -/
  | entryModeSet (i s : Bool)
  /-- LCD byte `00001dcb`, R87. -/
  | displayControl (d c b : Bool)
  /-- LCD byte `001lnfxx`, R88. -/
  | functionSet (l n f : Bool) (x : BitVec 2)
  /-- LCD byte `1aaaaaaa`, R89. -/
  | setDdramAddr (a : BitVec 7)
  /-- The status byte `baaaaaaa`, R90. -/
  | status (b : Bool) (a : BitVec 7)
  /-- The data byte `dddddddd`, R91. -/
  | data (d : Byte)
  deriving DecidableEq, Repr

end Sys2Proof
end

