-- ==== Sys2Proof/Machine/State.lean ====
section
/-! DEFINITION. The state of the block (spec/10_state.md R20), the trace its observer sees (spec/00_scope.md R11), and
its environment: the host's remaining program, what the LCD and the keypad answer, and the reference devices of
spec/20_memory.md R70 to R74. -/

namespace Sys2Proof.Machine

/-! ### The block's own types -/

/-- `DDIR`, the mode of the data bus (R23). -/
inductive BusDir where
  | input
  | output
  deriving DecidableEq, Repr

/-- `LCDST`, the driver's record of the LCD controller (R26). -/
inductive LcdStatus where
  | uninitialized
  | ready
  | busy
  deriving DecidableEq, Repr

/-- The nine events of spec/00_scope.md R11. -/
inductive Event where
  | ctl (rs rw e : Bool)
  | drive (b : Byte)
  | sample (b : Byte)
  | release
  | delayBus (n : Nat)
  | delayScan (n : Nat)
  | row (v : KeyWord)
  | col (m : KeyWord)
  | key (k : Fin 25)
  deriving DecidableEq, Repr

/-- One line of the running pseudocode, for `SEQ` (R33): the steps of spec/40_bus_primitive.md to
spec/43_dispatch_and_glue.md in the order their rules write them. -/
inductive Micro where
  /-- `call setControlLines(rs, rw, e)`, R110. -/
  | ctl (rs rw e : Bool)
  /-- `call driveData(b)`, R111. -/
  | drive (b : Byte)
  /-- `call releaseData()`, R113. -/
  | release
  /-- `call delayBus(n)`, R114. -/
  | delayBus (n : Nat)
  /-- `call delayScan(n)`, R115. -/
  | delayScan (n : Nat)
  /-- `b <- call readData()` of the status read cycle, R132. -/
  | readStatus
  /-- `until b[7] == 0`, the end of the poll loop, R133. -/
  | pollUntil
  /-- `if LCDST == Busy: LCDST <- Ready`, R133. -/
  | settleReady
  /-- `if LCDST == Ready: LCDST <- Busy`, R134, R135. -/
  | markBusy
  /-- `LCDST <- Ready`, the last line of `initialize`, R136. -/
  | markReady
  /-- the character loop of `writeLine`, with the text still to send, R137. -/
  | writeText (text : List Byte)
  /-- a call made by the collaborator or the glue, with the entry checks of R130. -/
  | call (c : LcdCall)
  /-- `call activateRow()`, R161. -/
  | activateRow
  /-- `MASK <- call sampleColumns()`, R164, R165. -/
  | sampleMask
  /-- `CNT <- 0`, R165, R170. -/
  | clearCount
  /-- `CNT <- CNT + 1`, R165. -/
  | bumpCount
  /-- the head of the confirmation loop, R165. -/
  | confirmLoop
  /-- the acceptance test and, if it passes, `Key(k)` and the collaborator's call, R166 to R169. -/
  | accept
  /-- the head of the release-confirmation loop, R170. -/
  | releaseLoop
  /-- one sample of the release-confirmation loop, R170. -/
  | releaseSample
  /-- `call deactivateRow()`, R171. -/
  | deactivateRow
  /-- `call advanceRow()`, R172. -/
  | advanceRow
  /-- the completion of the cycle: `MASK` and `CNT` become unspecified, R173. -/
  | scanDone
  /-- `call writeLine(BANNER_LINE, BANNER)`, R202. -/
  | banner
  /-- `while true: call scanCycle()`, R203. -/
  | mainLoop
  deriving DecidableEq, Repr

/-! ### The environment's types -/

/-- Which LCD is attached, and who answers a sample of the data bus (`LcdOracle`, spec/20_memory.md R68): an LCD of
which the spec says what R84 to R89 and R91 say, and nothing after a byte of R99 or a breach of the bus discipline, in
an environment that may answer anything (the answers it is known to give next, after them free values), or the
reference LCD, which is R70 to R73 exactly. The split is DEDUCED, log entry 9. -/
inductive LcdParty where
  | oracle (answers : List Byte)
  | reference
  deriving DecidableEq, Repr

/-- Who answers a column sample (`KeyOracle`, R67): as `LcdParty`, with raw column words and the reference keypad
(R74). -/
inductive KeyParty where
  | oracle (answers : List Byte)
  | reference
  deriving DecidableEq, Repr

/-- The display RAM as a list of written cells: addresses strictly rising, no cell equal to the blank one every
unlisted address reads as (R70). -/
abbrev Memory := List Host.Cell

/-- The attached LCD as far as the spec describes it: RefLCD's state (R70), the settings the mode instructions write
in an LCD that is not RefLCD (spec/10_state.md R35; spec/30_encoding.md R86 to R88), the pin word the device took at
the last fall of `E` and has not acted on yet (spec/41_lcd_driver.md R131), and the model's own record of how the bus
was used, which only an LCD that is not RefLCD keeps (log entry 25). -/
structure LcdDevice where
  /-- `AC`, the address pointer. -/
  ac : BitVec 7
  /-- `DDRAM`. -/
  ddram : Memory
  /-- `BUSYN`, the status reads that will still report busy. -/
  busyN : Nat
  /-- `BUSY_LAT`, the polls each write costs. -/
  busyLat : Nat
  /-- `LOG`, the bytes received with their register-select level. -/
  log : List (Bool × Byte)
  /-- function-set `l`: eight-bit interface (R88). -/
  eightBit : Bool
  /-- function-set `n`: two lines (R88). -/
  twoLines : Bool
  /-- function-set `f`: the larger font (R88). -/
  largeFont : Bool
  /-- display-control `d` (R87). -/
  displayOn : Bool
  /-- display-control `c` (R87). -/
  cursorOn : Bool
  /-- display-control `b` (R87). -/
  blinkOn : Bool
  /-- entry-mode `i`: increment after a data write (R86). -/
  increment : Bool
  /-- entry-mode `s`: shift the display (R86). -/
  shift : Bool
  /-- the transaction taken at the fall of `E`, until the device acts on it. -/
  latch : Option PinWord
  /-- `LCD_COLS` of this LCD (R8), where one is given; else `Config.lcdCols`. -/
  cols : Option Nat
  /-- the MODEL's own: a delay has passed since the last drive or edge of `E` (R262). -/
  settled : Bool
  /-- the MODEL's own: no status read has shown the LCD ready since it was given a byte or was read busy (R263). -/
  owed : Bool
  /-- the MODEL's own: the breaches of the bus discipline so far (U3, U4, U6). -/
  slips : Nat
  deriving DecidableEq, Repr

/-- RefKeypad's state (R74). -/
structure Keypad where
  script : List KeyMatrix
  cursor : Nat
  deriving DecidableEq, Repr

/-- What stands outside the block (spec/00_scope.md R9, R13): the host, the two attached devices, the collaborator,
and the counter of the free values drawn so far. -/
structure Environment where
  /-- the commands the host has still to issue, one at a time (R10, spec/30_encoding.md R100). -/
  program : List HostCommand
  lcdParty : LcdParty
  keyParty : KeyParty
  lcd : LcdDevice
  keypad : Keypad
  /-- `DISPATCH`, the collaborator's table (spec/43_dispatch_and_glue.md R200). -/
  dispatch : List DispatchRow
  /-- `BANNER`, where one is given; none is the default, the one pair `Config.banner`. -/
  banner : Option (List (Fin 2 × List Byte))
  /-- the MODEL's own counter: how many free values have been drawn. -/
  draws : Nat
  deriving DecidableEq, Repr

/-! ### The state -/

/-- The machine: the eleven fields of R20, the local variable of the poll loop that `SEQ` includes, the `RESULT`
port, the trace, and the environment. -/
structure State where
  /-- `RS`, R21. -/
  rs : Bool
  /-- `RW`, R21. -/
  rw : Bool
  /-- `E`, R21. -/
  e : Bool
  /-- `DOUT`, R22. -/
  dout : Byte
  /-- `DDIR`, R23. -/
  ddir : BusDir
  /-- `LCDST`, R26. -/
  lcdst : LcdStatus
  /-- `ROW`, R28: a model may make the type `Fin 5`. -/
  row : Fin 5
  /-- `ROWOUT`, R29. -/
  rowout : KeyWord
  /-- `MASK`, R30. -/
  mask : KeyWord
  /-- `CNT`, R32. -/
  cnt : BitVec 7
  /-- `SEQ`, R33: the rest of the running pseudocode; empty is `Idle`. -/
  seq : List Micro
  /-- `b`, the byte of the last status read: the local variable of R133's loop, part of `SEQ`. -/
  poll : Byte
  /-- the `RESULT[7:0]` port, spec/30_encoding.md R95. -/
  result : Byte
  /-- the events so far, oldest first, spec/00_scope.md R11. -/
  trace : List Event
  env : Environment
  deriving DecidableEq, Repr

/-! ### How a step can stop -/

/-- The block raises no fault: it has no trap, no error return and no fault bit, and a model must not add one
(spec/60_exceptions.md R220). A hang is an endless run of next states (R222, R223). -/
inductive Fault where
  deriving DecidableEq, Repr

/-- The refusals of spec/60_exceptions.md R224; a refused operation emits nothing and changes no state. -/
inductive Refusal where
  /-- Raised by no arm of this model: an instruction that had no meaning yet. Safe. -/
  | notModelled (mnemonic : String)
  /-- Raised by `reserved`: a command word outside the operation map (R98). Safe: the run stops. -/
  | reservedCommand
  /-- Raised by `writeLine` with an index other than 0 or 1 (R97, R137). Safe. -/
  | badLineIndex
  /-- Raised by `keyEvent` with a code above 24 (R201). Safe. -/
  | badKeyCode
  /-- Raised by the five writing operations of the LCD driver before `initialize` has completed (R130(b)). Safe. -/
  | lcdNotInitialized
  /-- Raised by every operation of the LCD driver when the pins are not idle (R130(a)). Safe. -/
  | pinsNotIdle
  deriving DecidableEq, Repr

/-! ### Reset -/

/-- RefLCD as R70 starts it; the settings and `BUSY_LAT`, to which R70 gives no value, at the log's (DESIGN CHOICE,
log entry 8). Of an LCD that is not RefLCD R250 leaves all of it to the device: its pointer, its busy count and its
cells at reset are RefLCD's by DESIGN CHOICE (log entries 8, 22), and no status read has shown it ready yet (R263). -/
def LcdDevice.initial : LcdDevice :=
  { ac := 0#7, ddram := [], busyN := 0, busyLat := 0, log := [],
    eightBit := false, twoLines := false, largeFont := false,
    displayOn := false, cursorOn := false, blinkOn := false,
    increment := true, shift := false, latch := none,
    cols := none, settled := true, owed := true, slips := 0 }

/-- The environment of a machine right after reset: nothing issued, nothing known of any answer
(log entries 5, 6, 14, 15, 17). -/
def Environment.initial : Environment :=
  { program := [], lcdParty := .oracle [], keyParty := .oracle [], lcd := LcdDevice.initial,
    keypad := { script := [], cursor := 0 }, dispatch := defaultDispatch, banner := none, draws := 0 }

/-- The machine right after reset (spec/10_state.md R38, spec/70_reset_and_hazards.md R250). `MASK`, `CNT`, the poll
variable and `RESULT` have no reset value in the spec: theirs are DESIGN CHOICE, log entries 2 and 3. -/
def State.reset : State :=
  { rs := false, rw := false, e := false, dout := 0#8, ddir := .input, lcdst := .uninitialized,
    row := 0, rowout := 0#5, mask := 0#5, cnt := 0#7, seq := [], poll := 0#8, result := 0#8,
    trace := [], env := Environment.initial }

end Sys2Proof.Machine
end

