-- ==== Sys2Proof/Machine/Flags.lean ====
section
/-! DEFINITION. The block stores no flags; these are the predicates of spec/10_state.md R34, computed and consumed at
once, and the idle pin state of R31. -/

namespace Sys2Proof.Machine

/-- `busy(b)`: bit 7 of a status byte is the busy flag (R34, spec/30_encoding.md R90). -/
def busyFlag (b : Byte) : Bool := b.getLsbD 7

/-- `nonzero(m)` (R34). -/
def nonzeroMask (m : KeyWord) : Bool := m != 0#5

/-- `single(m)`: exactly one bit set; the subtraction wraps modulo 32 (R34, spec/42_keypad_scanner.md R166). -/
def singleMask (m : KeyWord) : Bool := m != 0#5 && (m &&& (m - 1#5)) == 0#5

/-- The idle pin state (R31). -/
def State.pinsIdle (s : State) : Bool :=
  !s.rs && !s.rw && !s.e && s.dout == 0#8 && s.ddir == .input

end Sys2Proof.Machine
end

