-- ==== Sys2Proof/Machine/BusView.lean ====
section
/-! DEFINITION. The LCD bus as a device attached to it sees it: the control lines, whether the block drives the data
lines, and what the bus discipline of spec/10_state.md R25, spec/30_encoding.md R82 and spec/70_reset_and_hazards.md
R260 to R263 asks to be remembered. -/

namespace Sys2Proof.Machine

/-- The control lines, whether the block drives the bus, whether an inter-phase delay has passed since the last drive
or edge of `E` (R262), and whether a ready status is owed: the device was given a byte, or has shown itself busy, and no
status read has shown it ready since (R263). -/
structure BusView where
  rs : Bool
  rw : Bool
  e : Bool
  out : Bool
  waited : Bool
  owed : Bool
  deriving DecidableEq, Repr

/-- A status read as R132 has it: `RS = 0`, `RW = 1`, `E` high for an inter-phase delay, the bus an input. -/
def BusView.asked (v : BusView) : Bool := !v.rs && v.rw && v.e && v.waited && !v.out

/-- The end of a write pulse on a driven bus: the device is given a byte (R131). -/
def BusView.givesByte (v : BusView) : Event → Bool
  | .ctl _ _ e => v.e && !e && v.out && !v.rw
  | _ => false

/-- What the bus looks like after an event. A ready status is owed from the end of a write pulse on; a status
read settles it: with bit 7 clear none is owed, with bit 7 set one is, whatever was read before (R263, U4). -/
def BusView.next (v : BusView) : Event → BusView
  | .ctl rs rw e =>
    { v with
      rs := rs, rw := rw, e := e,
      waited := v.waited && (e == v.e),
      owed := v.owed || v.givesByte (.ctl rs rw e) }
  | .drive _ => { v with out := true, waited := false }
  | .sample b => { v with out := false, owed := if v.asked then busyFlag b else v.owed }
  | .release => { v with out := false }
  | .delayBus n => { v with waited := v.waited || decide (0 < n) }
  | .delayScan _ => v
  | .row _ => v
  | .col _ => v
  | .key _ => v

/-- Whether an event breaks the discipline, so that the spec says nothing of the device's state afterwards. A `Ctl` that changes no line breaks nothing (R110), nor does a `Release` or a sample
of a bus that is an input already (R113). `Ctl`: the
device in read mode while the block drives (R25, R260; U6), a data read (U8), a change without a delay since the last
drive or edge (R262; U3), `RS` or `RW` not held through a pulse (R82), a write pulse on an undriven bus (R25) or with
a ready status owed (R263; U4). `Drive`: in read mode, inside a pulse, too early, or with a ready status owed. The end
of driving, by `Release` or by a sample: inside a pulse or too early (R262). DEDUCED where U3, U4 or U6 names the
breach, else DESIGN CHOICE (log entry 25). -/
def BusView.breaks (v : BusView) : Event → Bool
  | .ctl rs rw e =>
    !(e == v.e && rs == v.rs && rw == v.rw)
      && ((rw && v.out) || (rs && rw && e) || !v.waited || ((v.e || e) && !(rs == v.rs && rw == v.rw))
        || (e && !v.e && !rw && (!v.out || v.owed)))
  | .drive _ => v.rw || v.e || !v.waited || v.owed
  | .sample _ => v.out && (v.e || !v.waited)
  | .release => v.out && (v.e || !v.waited)
  | .delayBus _ => false
  | .delayScan _ => false
  | .row _ => false
  | .col _ => false
  | .key _ => false

/-- The bus as it stands in a state. -/
def State.busView (s : State) : BusView :=
  { rs := s.rs, rw := s.rw, e := s.e, out := decide (s.ddir = .output),
    waited := s.env.lcd.settled, owed := s.env.lcd.owed }

end Sys2Proof.Machine
end

