-- ==== Sys2Proof/Machine/Memory.lean ====
section
/-! DEFINITION. The display RAM (spec/20_memory.md R52, R70): 128 one-byte cells, kept as the list of the cells that
differ from the blank one. -/

namespace Sys2Proof.Machine

/-- The byte at address `a`: the blank cell where nothing else is listed (R70). -/
def Memory.read : Memory → Nat → Byte
  | [], _ => Config.blankCell
  | (k, v) :: m, a => if k = a then v else Memory.read m a

/-- `m` with the cell `(a, b)` in front, left out where it is blank. -/
def Memory.putCell (a : Nat) (b : Byte) (m : Memory) : Memory :=
  if b = Config.blankCell then m else (a, b) :: m

/-- One byte written; the canonical form is kept. -/
def Memory.write : Memory → Nat → Byte → Memory
  | [], a, b => Memory.putCell a b []
  | (k, v) :: m, a, b =>
    if a < k then Memory.putCell a b ((k, v) :: m)
    else if a = k then Memory.putCell a b m
    else (k, v) :: Memory.write m a b

/-- The display RAM whose 128 cells are given by a function. -/
def Memory.ofCells (f : Nat → Byte) : Memory := (List.range 128).foldr (fun a m => Memory.putCell a (f a) m) []

/-- Every listed address lies in `lo ..< 128`, rising strictly, and no listed cell is blank. -/
def Memory.wfFrom : Nat → Memory → Bool
  | _, [] => true
  | lo, (k, v) :: m => decide (lo ≤ k) && decide (k < 128) && (v != Config.blankCell) && Memory.wfFrom (k + 1) m

/-- The canonical form. -/
def Memory.wf (m : Memory) : Bool := Memory.wfFrom 0 m

end Sys2Proof.Machine
end

