-- ==== Sys2Proof/WellFormed.lean ====
section
/-! DEFINITION. Which instructions the encodings admit. An operand of the wrong kind cannot be built (the types
hold the widths); what is left to check is the line index (R97), the text (R102), the key code (R201) and that a
reserved word is one no other row claims (R98). -/

namespace Sys2Proof

/-- The reserved command words, item (1) of R98: `op = 0xF`, or a fixed `arg` bit that is not as R96 shows. -/
def isReservedWord (w : BitVec 12) : Bool :=
  let op : BitVec 4 := w.extractLsb' 8 4
  let arg : Byte := w.extractLsb' 0 8
  op == 0xF#4
    || (op == 0x0#4 && arg.extractLsb' 3 5 != 0#5)
    || (op == 0x9#4 && arg.extractLsb' 1 7 != 0#7)
    || (op == 0xD#4 && arg.extractLsb' 5 3 != 0#3)
    || ((op == 0x2#4 || op == 0x3#4 || op == 0x5#4 || op == 0x8#4 || op == 0xB#4 || op == 0xC#4 || op == 0xE#4)
        && arg != 0#8)

/-- A text operand holds no terminator (R102). -/
def textOk (text : List Byte) : Bool := text.all (fun c => c != Config.terminator)

/-- The instructions an encoding exists for. -/
def Instr.wellFormed : Instr → Bool
  | .setControlLines _ _ _ => true
  | .driveData _ => true
  | .readData => true
  | .releaseData => true
  | .delayBus _ => true
  | .waitReady => true
  | .writeInstruction _ => true
  | .writeData _ => true
  | .initializeLcd => true
  | .writeLine lineIndex text => decide (lineIndex < 2) && textOk text
  | .writeChar _ => true
  | .clear => true
  | .scanCycle => true
  | .keyEvent k => decide (k.toNat ≤ 24)
  | .startup => true
  | .reserved w => isReservedWord w
  | .clearDisplay => true
  | .returnHome _ => true
  | .entryModeSet _ _ => true
  | .displayControl _ _ _ => true
  | .functionSet _ _ _ _ => true
  | .setDdramAddr _ => true
  | .status _ _ => true
  | .data _ => true

end Sys2Proof
end

