-- ==== Sys2Proof/Decode.lean ====
section
/-! DEFINITION. Decoding and encoding of the two instruction formats: the host command word (format CMD,
spec/30_encoding.md R95 to R98) and the transaction on the LCD bus (format BUSW, R81, R82, with the byte in format
LCDI, LCDS or LCDD, R84 to R91). -/

namespace Sys2Proof

/-! ### Bit-field helpers -/

/-- The `op` field, bits 11..8 of a command word (R95). -/
def opField (w : BitVec 12) : BitVec 4 := w.extractLsb' 8 4

/-- The `arg` field, bits 7..0 of a command word (R95). -/
def argField (w : BitVec 12) : Byte := w.extractLsb' 0 8

/-- One bit as a number. -/
def bitOf (b : Bool) : BitVec 1 := BitVec.ofBool b

/-- The command word `op, arg` (R95). -/
def commandWord (op : BitVec 4) (arg : Byte) : BitVec 12 := op ++ arg

/-- The pin word `RS, RW, E, D[7:0]` (R81). -/
def pinWord (rs rw e : Bool) (d : Byte) : PinWord := bitOf rs ++ bitOf rw ++ bitOf e ++ d

/-- `setControlLines` argument: `00000 rs rw e` (R97). -/
def controlArg (rs rw e : Bool) : Byte := 0#5 ++ bitOf rs ++ bitOf rw ++ bitOf e

/-- The byte `0000001x` of `RETURN_HOME`: the parameter with its low bit (R83, R85). -/
def returnHomeByte (x : Bool) : Byte := Config.opReturnHome ||| (bitOf x).setWidth 8

/-- The byte `000001is` of `ENTRY_MODE_SET` (R86). -/
def entryModeByte (i s : Bool) : Byte := 1#6 ++ bitOf i ++ bitOf s

/-- The byte `00001dcb` of `DISPLAY_CONTROL` (R87). -/
def displayControlByte (d c b : Bool) : Byte := 1#5 ++ bitOf d ++ bitOf c ++ bitOf b

/-- The byte `001lnfxx` of `FUNCTION_SET` (R88). -/
def functionSetByte (l n f : Bool) (x : BitVec 2) : Byte := 1#3 ++ bitOf l ++ bitOf n ++ bitOf f ++ x

/-- The byte `1aaaaaaa` of `SET_DDRAM_ADDR`: the parameter OR-ed with the address (R83, R89). -/
def setDdramAddrByte (a : BitVec 7) : Byte := Config.opSetDdram ||| a.setWidth 8

/-- The status byte `baaaaaaa` (R90). -/
def statusByte (b : Bool) (a : BitVec 7) : Byte := bitOf b ++ a

/-! ### Host commands -/

/-- The instruction a host command stands for (R96); every word outside the map is the reserved row's (R98). -/
def decodeCommand (c : HostCommand) : Instr :=
  let arg := argField c.word
  match (opField c.word).toNat with
  | 0x0 =>
    if arg.extractLsb' 3 5 = 0#5 then .setControlLines (arg.getLsbD 2) (arg.getLsbD 1) (arg.getLsbD 0)
    else .reserved c.word
  | 0x1 => .driveData arg
  | 0x2 => if arg = 0#8 then .readData else .reserved c.word
  | 0x3 => if arg = 0#8 then .releaseData else .reserved c.word
  | 0x4 => .delayBus arg
  | 0x5 => if arg = 0#8 then .waitReady else .reserved c.word
  | 0x6 => .writeInstruction arg
  | 0x7 => .writeData arg
  | 0x8 => if arg = 0#8 then .initializeLcd else .reserved c.word
  | 0x9 => if arg.extractLsb' 1 7 = 0#7 then .writeLine (arg.getLsbD 0).toNat c.text else .reserved c.word
  | 0xA => .writeChar arg
  | 0xB => if arg = 0#8 then .clear else .reserved c.word
  | 0xC => if arg = 0#8 then .scanCycle else .reserved c.word
  | 0xD => if arg.extractLsb' 5 3 = 0#3 then .keyEvent (arg.extractLsb' 0 5) else .reserved c.word
  | 0xE => if arg = 0#8 then .startup else .reserved c.word
  | _ => .reserved c.word

/-! ### Bus transactions -/

/-- Why a pin word carries no instruction. -/
inductive DecodeError where
  /-- `E` is low: no transaction (a transaction is one pulse of `E`, R82). -/
  | enableLow
  /-- `RS = 1, RW = 1`: the data read, to which the spec gives no meaning (R51, R82). -/
  | dataRead
  /-- An instruction byte outside R84 to R89 (R99). -/
  | unassignedInstructionByte (b : Byte)
  deriving DecidableEq, Repr

/-- What a pin word decodes to. -/
inductive Decoded where
  | ok (i : Instr)
  | rejected (why : DecodeError)
  deriving DecidableEq, Repr

/-- The instruction byte written with `RS = 0, RW = 0`: the highest set bit selects the row (R84 to R89), and the row
without a field is its parameter alone (R83, R84). -/
def decodeLcdInstruction (b : Byte) : Decoded :=
  if b.getLsbD 7 then .ok (.setDdramAddr (b.extractLsb' 0 7))
  else if b.getLsbD 6 then .rejected (.unassignedInstructionByte b)
  else if b.getLsbD 5 then
    .ok (.functionSet (b.getLsbD 4) (b.getLsbD 3) (b.getLsbD 2) (b.extractLsb' 0 2))
  else if b.getLsbD 4 then .rejected (.unassignedInstructionByte b)
  else if b.getLsbD 3 then .ok (.displayControl (b.getLsbD 2) (b.getLsbD 1) (b.getLsbD 0))
  else if b.getLsbD 2 then .ok (.entryModeSet (b.getLsbD 1) (b.getLsbD 0))
  else if b.getLsbD 1 then .ok (.returnHome (b.getLsbD 0))
  else if b = Config.opClearDisplay then .ok .clearDisplay
  else .rejected (.unassignedInstructionByte b)

/-- The instruction a transaction on the LCD bus carries, chosen by `RS` and `RW` (R82). -/
def decodePins (w : PinWord) : Decoded :=
  let d := w.extractLsb' 0 8
  if w.getLsbD 8 = false then .rejected .enableLow
  else
    match w.getLsbD 10, w.getLsbD 9 with
    | false, false => decodeLcdInstruction d
    | true, false => .ok (.data d)
    | false, true => .ok (.status (d.getLsbD 7) (d.extractLsb' 0 7))
    | true, true => .rejected .dataRead

/-! ### Encoding -/

/-- An instruction as it is presented: by the host, or by the pins while `E` is high. -/
inductive Encoded where
  | command (c : HostCommand)
  | pins (w : PinWord)
  deriving DecidableEq, Repr

/-- Either presentation, decoded. -/
def decode : Encoded → Decoded
  | .command c => .ok (decodeCommand c)
  | .pins w => decodePins w

/-- A command with no text. -/
def plainCommand (op : BitVec 4) (arg : Byte) : Encoded := .command ⟨commandWord op arg, []⟩

/-- A write of `b` to the LCD's instruction register, while `E` is high (R82). -/
def instructionWrite (b : Byte) : Encoded := .pins (pinWord false false true b)

/-- The words of an instruction, from the encoding rules R84 to R97. -/
def encode : Instr → Encoded
  | .setControlLines rs rw e => plainCommand 0x0#4 (controlArg rs rw e)
  | .driveData b => plainCommand 0x1#4 b
  | .readData => plainCommand 0x2#4 0#8
  | .releaseData => plainCommand 0x3#4 0#8
  | .delayBus n => plainCommand 0x4#4 n
  | .waitReady => plainCommand 0x5#4 0#8
  | .writeInstruction c => plainCommand 0x6#4 c
  | .writeData b => plainCommand 0x7#4 b
  | .initializeLcd => plainCommand 0x8#4 0#8
  | .writeLine lineIndex text => .command ⟨commandWord 0x9#4 (BitVec.ofNat 8 (lineIndex % 2)), text⟩
  | .writeChar c => plainCommand 0xA#4 c
  | .clear => plainCommand 0xB#4 0#8
  | .scanCycle => plainCommand 0xC#4 0#8
  | .keyEvent k => plainCommand 0xD#4 (0#3 ++ k)
  | .startup => plainCommand 0xE#4 0#8
  | .reserved w => .command ⟨w, []⟩
  | .clearDisplay => instructionWrite Config.opClearDisplay
  | .returnHome x => instructionWrite (returnHomeByte x)
  | .entryModeSet i s => instructionWrite (entryModeByte i s)
  | .displayControl d c b => instructionWrite (displayControlByte d c b)
  | .functionSet l n f x => instructionWrite (functionSetByte l n f x)
  | .setDdramAddr a => instructionWrite (setDdramAddrByte a)
  | .status b a => .pins (pinWord false true true (statusByte b a))
  | .data d => .pins (pinWord true false true d)

/-! ### The opcode table's words -/

/-- How a byte of the table is presented: an instruction byte of R84 to R89 as a write of the LCD's instruction
register; any other byte can stand only in the STATUS or the DATA row, which fix no bit, and is presented as a write of
the data register (log entry 11). -/
def presentTableByte (b : Byte) : Encoded :=
  match decodeLcdInstruction b with
  | .ok _ => instructionWrite b
  | .rejected _ => .pins (pinWord true false true b)

/-- How the table's word `w` is presented: a row of at most eight bits is a byte on the LCD bus, a wider one a
command. -/
def presentTableWord (nbits w : Nat) : Option Encoded :=
  if nbits ≤ 8 then
    if w < 256 then some (presentTableByte (BitVec.ofNat 8 w)) else none
  else
    if w < 4096 then some (.command ⟨BitVec.ofNat 12 w, []⟩) else none

/-- The instruction the decoder reads from a word of the opcode table. -/
def decodeTableWord (nbits w : Nat) : Option Instr :=
  match presentTableWord nbits w with
  | none => none
  | some enc =>
    match decode enc with
    | .ok i => some i
    | .rejected _ => none

end Sys2Proof
end

