-- ==== Sys2Proof/Machine/Operands.lean ====
section
/-! DEFINITION. How each operand is formed (spec/30_encoding.md R97) and the keypad's arithmetic
(spec/42_keypad_scanner.md R168, R169, R172). Nothing is signed and nothing is sign-extended. -/

namespace Sys2Proof.Machine

/-- The display-RAM offset of a line: the two fixed constants (R97, R137). -/
def lineOffset (lineIndex : Nat) : Byte :=
  if lineIndex = 0 then Config.line0Addr else Config.line1Addr

/-- The set-address byte of a line, a bitwise OR (R97). -/
def lineAddressByte (lineIndex : Nat) : Byte := Config.opSetDdram ||| lineOffset lineIndex

/-- `raw & 0x1F`, the five lower bits of the raw column word (R93, R162). -/
def columnMask (raw : Byte) : KeyWord := (raw &&& 0x1F#8).setWidth 5

/-- `onehot5(ROW)` (R92, R161). -/
def onehot5 (row : Fin 5) : KeyWord := 1#5 <<< row.val

/-- `position_of_set_bit(m)` (R168): 0 for mask 0, the bit's index for a single-bit mask, and otherwise a free value
of 0 to 4, the `n`-th drawn. -/
def positionOfSetBit (n : Nat) (m : KeyWord) : Fin 5 :=
  if m = 0#5 then 0
  else if singleMask m then
    if m.getLsbD 0 then 0
    else if m.getLsbD 1 then 1
    else if m.getLsbD 2 then 2
    else if m.getLsbD 3 then 3
    else 4
  else Config.freePosition n m

/-- `keyCode(row, col) = 5*row + col` (R169). -/
def keyCode (row col : Fin 5) : Fin 25 := ⟨5 * row.val + col.val, by omega⟩

/-- `(ROW + 1) mod 5` (R172). -/
def nextRow (row : Fin 5) : Fin 5 := ⟨(row.val + 1) % 5, Nat.mod_lt _ (by decide)⟩

/-- The five columns of one row of a key matrix (spec/20_memory.md R74). -/
def matrixRow (m : KeyMatrix) (row : Nat) : KeyWord := m.extractLsb' (5 * row) 5

/-- What the columns of a key matrix read for a row word: the OR over the active rows (R74). -/
def matrixColumns (m : KeyMatrix) (rowout : KeyWord) : KeyWord :=
  (List.range 5).foldl (fun acc r => if rowout.getLsbD r then acc ||| matrixRow m r else acc) 0#5

end Sys2Proof.Machine
end

