-- ==== Sys2Proof/Machine/Ops.lean ====
section
/-! DEFINITION. The named operations over the state: the bus primitive (spec/40_bus_primitive.md), the oracles
(spec/20_memory.md R67, R68), the scanner's steps (spec/42_keypad_scanner.md) and the attached LCD's effects (R71 to
R73; spec/30_encoding.md R99). There is no operation for taking an exception or returning from one: the block has no
trap (spec/60_exceptions.md R220, R228, R229). -/

namespace Sys2Proof.Machine

/-! ### Shared helpers -/

/-- `emit Ev`: append to the trace (spec/00_scope.md section 6). -/
def State.emit (s : State) (ev : Event) : State := { s with trace := s.trace ++ [ev] }

/-- Go on with the lines `prog` and then what was next: the call of a procedure (spec/30_encoding.md R103). -/
def State.pushSeq (s : State) (prog : List Micro) : State := { s with seq := prog ++ s.seq }

/-- The attached LCD changed. -/
def State.setLcd (s : State) (d : LcdDevice) : State := { s with env := { s.env with lcd := d } }

/-! ### What the attached LCD makes of the bus -/

/-- An LCD of which the spec says nothing, after a byte of R99 (U7, N24), a breach of the bus discipline (U3, U4, U6),
or a byte before any function-set (R264, U12): its pointer, its cells and its settings are free values. -/
def lcdUndescribed (d : LcdDevice) : LcdDevice :=
  let free := Config.lcdSettings d.log d.slips
  { d with
    ac := Config.lcdPointer d.log d.slips, ddram := Memory.ofCells (Config.lcdCell d.log d.slips),
    eightBit := free.getLsbD 0, twoLines := free.getLsbD 1, largeFont := free.getLsbD 2,
    displayOn := free.getLsbD 3, cursorOn := free.getLsbD 4, blinkOn := free.getLsbD 5,
    increment := free.getLsbD 6, shift := free.getLsbD 7 }

/-- What an LCD that is not RefLCD makes of an event on the bus: it keeps the record of R262 and R263, and of its
state nothing is said after a breach (log entry 25). RefLCD is R70 to R73 exactly, whatever the bus does. -/
def lcdHears (v : BusView) (ev : Event) (p : LcdParty) (d : LcdDevice) : LcdDevice :=
  match p with
  | .reference => d
  | .oracle _ =>
    let heard := { d with settled := (v.next ev).waited, owed := (v.next ev).owed }
    if v.breaks ev then lcdUndescribed { heard with slips := d.slips + 1 } else heard

/-- An event on the LCD bus, from the state before it: appended to the trace and heard by the attached LCD. -/
def State.emitBus (s : State) (ev : Event) : State :=
  (s.setLcd (lcdHears s.busView ev s.env.lcdParty s.env.lcd)).emit ev

/-! ### Bus transaction primitive -/

/-- Whether new control lines make `E` fall at the end of a write pulse while the block drives the bus: the moment
the device takes the byte (spec/20_memory.md R71, spec/41_lcd_driver.md R131; DEDUCED, log entry 7). Whether an LCD
that is not RefLCD takes a byte from a pulse that breaks the bus discipline is not said (R262, R82): the byte is then
logged as given, and the state of that LCD is free (log entry 25). -/
def writePulseEnds (s : State) (rs rw e : Bool) : Bool :=
  s.e && !e && !s.rw && !rw && (rs == s.rs) && (s.ddir == .output)

/-- What the device has taken after the control lines change. -/
def latchAfter (s : State) (rs rw e : Bool) : Option PinWord :=
  if writePulseEnds s rs rw e then some (pinWord s.rs false true s.dout) else s.env.lcd.latch

/-- `setControlLines(rs, rw, e)` (R110). -/
def setControlLines (rs rw e : Bool) (s : State) : State :=
  let t := s.emitBus (.ctl rs rw e)
  { t with
    rs := rs, rw := rw, e := e,
    env := { t.env with lcd := { t.env.lcd with latch := latchAfter s rs rw e } } }

/-- `driveData(byte)` (R111). -/
def driveData (b : Byte) (s : State) : State :=
  { s.emitBus (.drive b) with ddir := .output, dout := b }

/-- `releaseData()` (R113). -/
def releaseData (s : State) : State :=
  { s.emitBus .release with dout := 0#8, ddir := .input }

/-- `delayBus(n)` (R114). -/
def delayBus (n : Nat) (s : State) : State := s.emitBus (.delayBus n)

/-- `delayScan(n)` (R115). -/
def delayScan (n : Nat) (s : State) : State := s.emit (.delayScan n)

/-! ### The oracles -/

/-- What the reference LCD answers a sample with (spec/20_memory.md R73). -/
def refLcdAnswer (s : State) : Byte :=
  if !s.rs && s.rw && s.e then statusByte (decide (0 < s.env.lcd.busyN)) s.env.lcd.ac else 0xFF#8

/-- The reference LCD after it has answered (R73). -/
def refLcdAnswered (s : State) : LcdDevice :=
  if !s.rs && s.rw && s.e then { s.env.lcd with busyN := s.env.lcd.busyN - 1 } else s.env.lcd

/-- `LcdOracle(RS, RW, E)`: the byte the environment supplies, and the state after it was asked. -/
def lcdAnswer (s : State) : Byte × State :=
  match s.env.lcdParty with
  | .oracle (b :: rest) => (b, { s with env := { s.env with lcdParty := .oracle rest } })
  | .oracle [] =>
    (Config.lcdOracle s.env.draws s.rs s.rw s.e, { s with env := { s.env with draws := s.env.draws + 1 } })
  | .reference => (refLcdAnswer s, s.setLcd (refLcdAnswered s))

/-- The key matrix the reference keypad shows at its cursor; past the end of the script the last one repeats, and an
empty script shows no key (R74; DESIGN CHOICE, log entry 17). -/
def scriptAt : List KeyMatrix → Nat → KeyMatrix
  | [], _ => 0#25
  | [m], _ => m
  | m :: _ :: _, 0 => m
  | _ :: m :: rest, n + 1 => scriptAt (m :: rest) n

/-- The reference keypad's raw column word: bits 5 to 7 set (R74). -/
def refKeyAnswer (s : State) : Byte :=
  (7#3 : BitVec 3) ++ matrixColumns (scriptAt s.env.keypad.script s.env.keypad.cursor) s.rowout

/-- `KeyOracle(ROWOUT)`: the raw column word the environment supplies, and the state after it was asked. -/
def keyAnswer (s : State) : Byte × State :=
  match s.env.keyParty with
  | .oracle (w :: rest) => (w, { s with env := { s.env with keyParty := .oracle rest } })
  | .oracle [] =>
    (Config.keyOracle s.env.draws s.rowout, { s with env := { s.env with draws := s.env.draws + 1 } })
  | .reference =>
    (refKeyAnswer s,
      { s with env := { s.env with keypad := { s.env.keypad with cursor := s.env.keypad.cursor + 1 } } })

/-! ### Samples -/

/-- The data bus becomes an input and the byte `b` is sampled from it (R112). -/
def takeSample (b : Byte) (s : State) : State := { s.emitBus (.sample b) with ddir := .input }

/-- `readData()` issued by the host: the sampled byte goes to `RESULT` (R112). -/
def readData (s : State) : State :=
  let a := lcdAnswer s
  { takeSample a.1 a.2 with result := a.1 }

/-- A status byte read inside the poll loop: it goes to the loop's variable (R132, R133). -/
def readStatus (b : Byte) (s : State) : State := { takeSample b s with poll := b }

/-- `sampleColumns()`: the masked word and the state after (R162). -/
def sampleColumns (s : State) : KeyWord × State :=
  let a := keyAnswer s
  (columnMask a.1, a.2.emit (.col (columnMask a.1)))

/-! ### The bookkeeping of `LCDST` (spec/10_state.md R27) -/

/-- `Ready -> Busy` after a write cycle (R134, R135). -/
def markBusy (s : State) : State := if s.lcdst = .ready then { s with lcdst := .busy } else s

/-- `Busy -> Ready` at the end of a wait (R133). -/
def settleReady (s : State) : State := if s.lcdst = .busy then { s with lcdst := .ready } else s

/-- The last line of `initialize` (R136). -/
def markReady (s : State) : State := { s with lcdst := .ready }

/-! ### The scanner's steps -/

/-- `activateRow()` (R161). -/
def activateRow (s : State) : State :=
  ({ s with rowout := onehot5 s.row }).emit (.row (onehot5 s.row))

/-- `deactivateRow()` (R171). -/
def deactivateRow (s : State) : State := ({ s with rowout := 0#5 }).emit (.row 0#5)

/-- `advanceRow()` (R172). -/
def advanceRow (s : State) : State := { s with row := nextRow s.row }

/-- `MASK <- sampleColumns()` (R164, R165). -/
def sampleMask (s : State) : State :=
  let a := sampleColumns s
  { a.2 with mask := a.1 }

/-- `CNT <- 0` (R165, R170). -/
def clearCount (s : State) : State := { s with cnt := 0#7 }

/-- `CNT <- CNT + 1` (R165). -/
def bumpCount (s : State) : State := { s with cnt := s.cnt + 1#7 }

/-- One sample of the release-confirmation loop: counted if zero, else the count starts again; not stored in `MASK`
(R170). -/
def releaseSample (s : State) : State :=
  let a := sampleColumns s
  if nonzeroMask a.1 then { a.2 with cnt := 0#7 } else { a.2 with cnt := a.2.cnt + 1#7 }

/-- `MASK` and `CNT` become unspecified at the completion of a scan cycle (R173, spec/10_state.md R30, R32). -/
def scanDone (s : State) : State :=
  { s with
    mask := Config.freeMask s.env.draws, cnt := Config.freeCount s.env.draws,
    env := { s.env with draws := s.env.draws + 1 } }

/-! ### The attached LCD's effects (spec/20_memory.md R71, R72; spec/30_encoding.md R84 to R91, R99) -/

/-- Every byte the device takes is logged and makes it busy (R59(1), R71). -/
def lcdAccept (rs : Bool) (b : Byte) (d : LcdDevice) : LcdDevice :=
  { d with log := d.log ++ [(rs, b)], busyN := d.busyLat }

/-- Whether the spec says what an LCD does with a byte: every data byte, and the instruction bytes of R84 to R89, the
function-set with the document's settings only (R99). -/
def describedByte (rs : Bool) (b : Byte) : Bool :=
  if rs == Config.rsData then true
  else
    match decodeLcdInstruction b with
    | .ok (.functionSet l n f _) => functionSetByte l n f 0#2 == Config.opFunctionSet
    | .ok _ => true
    | .rejected _ => false

/-- Whether the first byte of a log is a function-set: before one the spec gives no behaviour of an LCD (R264,
spec/10_state.md R27(5), U12). -/
def functionSetLeads (log : List (Bool × Byte)) : Bool :=
  match log with
  | [] => false
  | (rs, b) :: _ =>
    rs == Config.rsInstr &&
      match decodeLcdInstruction b with
      | .ok (.functionSet _ _ _ _) => true
      | _ => false

/-- Whether the spec says anything of what the bytes given to an LCD have made of it: the bus discipline was kept (U3,
U4, U6; log entry 25), a function-set came before any other byte (R264, U12; log entry 26), and no byte of R99 was
given to it (log entry 10). -/
def lcdDescribed (d : LcdDevice) : Bool :=
  d.slips == 0 && functionSetLeads d.log && d.log.all (fun p => describedByte p.1 p.2)

/-- The attached LCD takes a byte: the reference LCD does what R71 and R72 say of it, any other what R84 to R91 say,
as long as the spec describes it (log entries 9, 10, 25, 26). -/
def lcdTake (rs : Bool) (b : Byte) (reference other : LcdDevice → LcdDevice) (s : State) : State :=
  let d := lcdAccept rs b s.env.lcd
  match s.env.lcdParty with
  | .reference => s.setLcd (reference d)
  | .oracle _ => s.setLcd (if lcdDescribed d then other d else lcdUndescribed d)

/-- Logged only: what the reference LCD does with a byte that R71 gives no effect. -/
def lcdLogged (d : LcdDevice) : LcdDevice := d

/-- Every cell blank and the address pointer 0 (R71; of an LCD other than RefLCD PRESUMED, log entry 7). The settings
stay as they are: DESIGN CHOICE, log entry 24. -/
def lcdClear (d : LcdDevice) : LcdDevice := { d with ddram := [], ac := 0#7 }

/-- The address pointer at `a` (R71, R89). -/
def lcdPointAt (a : BitVec 7) (d : LcdDevice) : LcdDevice := { d with ac := a }

/-- RefLCD's data write: the byte stored at the address pointer, which goes up by one modulo 128 (R72). -/
def refStore (b : Byte) (d : LcdDevice) : LcdDevice :=
  { d with ddram := Memory.write d.ddram d.ac.toNat b, ac := d.ac + 1#7 }

/-- The character position of an address within its line: the lines start at 0x00 and 0x40 (spec/20_memory.md R60). -/
def columnOf (a : BitVec 7) : Nat := a.toNat % Config.line1Addr.toNat

/-- `LCD_COLS` of an LCD. -/
def LcdDevice.columns (d : LcdDevice) : Nat := d.cols.getD Config.lcdCols

/-- The address pointer of another LCD after a data write within a line: the next character position of the line, or
the one before where entry-mode `i` is 0 (R86); past either end of the line a free value (R52, N9; log entry 9). -/
def nextAddress (d : LcdDevice) : BitVec 7 :=
  if d.increment then
    if columnOf d.ac + 1 < d.columns ∧ columnOf d.ac + 1 < Config.line1Addr.toNat then d.ac + 1#7
    else Config.lcdPointer d.log d.slips
  else if 0 < columnOf d.ac then d.ac - 1#7
  else Config.lcdPointer d.log d.slips

/-- Another LCD's data write (R91): within the `LCD_COLS` positions of a line the byte is stored at the address
pointer, which then moves; past them it is not said whether the byte is stored, discarded or wrapped (R52, U1, N9),
and the pointer and the cells are free values. -/
def lcdStore (b : Byte) (d : LcdDevice) : LcdDevice :=
  if columnOf d.ac < d.columns then
    { d with ddram := Memory.write d.ddram d.ac.toNat b, ac := nextAddress d }
  else
    { d with
      ddram := Memory.ofCells (Config.lcdCell d.log d.slips), ac := Config.lcdPointer d.log d.slips }

end Sys2Proof.Machine
end

