-- ==== Sys2Proof/Machine/BusPrimitive.lean ====
section
/-! DEFINITION. The host's operations of the bus transaction primitive (spec/40_bus_primitive.md): one event each, one
outcome, `done` (R117). -/

namespace Sys2Proof.Machine

/-- `setControlLines(rs, rw, e)`, R110. -/
def execSetControlLines (rs rw e : Bool) (s : State) : Host.Outcome State Fault Refusal :=
  .next (setControlLines rs rw e s)

/-- `driveData(byte)`, R111. -/
def execDriveData (b : Byte) (s : State) : Host.Outcome State Fault Refusal := .next (driveData b s)

/-- `readData()`, R112. -/
def execReadData (s : State) : Host.Outcome State Fault Refusal := .next (readData s)

/-- `releaseData()`, R113. -/
def execReleaseData (s : State) : Host.Outcome State Fault Refusal := .next (releaseData s)

/-- `delayBus(n)`, R114. -/
def execDelayBus (n : Byte) (s : State) : Host.Outcome State Fault Refusal := .next (delayBus n.toNat s)

end Sys2Proof.Machine
end

