-- ==== Sys2Proof/Machine/Sequencer.lean ====
section
/-! DEFINITION. The sequencer (spec/10_state.md R33): the pseudocode of every operation as the list of its lines, the
entry checks of the LCD driver (spec/41_lcd_driver.md R130), what one line does, and whose turn it is. -/

namespace Sys2Proof.Machine

/-! ### The pseudocode of the LCD driver -/

/-- `BusWrite(rs, v)`, the write cycle (R131). -/
def busWrite (rs : Bool) (v : Byte) : List Micro :=
  [.ctl rs Config.rwWrite false, .drive v, .delayBus 1, .ctl rs Config.rwWrite true, .delayBus 1,
   .ctl rs Config.rwWrite false, .delayBus 1, .release]

/-- `b <- BusPoll()` and the test of the loop it stands in (R132, R133). -/
def pollBody : List Micro :=
  [.ctl Config.rsInstr Config.rwRead true, .delayBus 1, .readStatus,
   .ctl Config.rsInstr Config.rwRead false, .delayBus 1, .pollUntil]

/-- `waitReady()` (R133). -/
def waitReadyLines : List Micro :=
  [.ctl Config.rsInstr Config.rwRead false, .delayBus 1] ++ pollBody ++
    [.ctl Config.rsInstr Config.rwWrite false, .settleReady]

/-- A write and the wait that follows it: `writeInstruction` and `writeData` differ in `RS` only (R134, R135). -/
def writeLines (rs : Bool) (v : Byte) : List Micro := busWrite rs v ++ [.markBusy] ++ waitReadyLines

/-- `initialize()` (R136). -/
def initializeLines : List Micro :=
  waitReadyLines
    ++ writeLines Config.rsInstr Config.opFunctionSet
    ++ writeLines Config.rsInstr Config.opDisplayControl
    ++ writeLines Config.rsInstr Config.opClearDisplay
    ++ writeLines Config.rsInstr Config.opEntryMode
    ++ writeLines Config.rsInstr Config.opReturnHome
    ++ [.markReady]

/-- The lines of a driver operation (R133 to R139). -/
def callLines : LcdCall → List Micro
  | .waitReady => waitReadyLines
  | .writeInstruction c => writeLines Config.rsInstr c
  | .writeData b => writeLines Config.rsData b
  | .initializeLcd => initializeLines
  | .writeLine i text => writeLines Config.rsInstr (lineAddressByte i) ++ [.writeText text]
  | .writeChar c => writeLines Config.rsData (Config.charmap c)
  | .clear => writeLines Config.rsInstr Config.opClearDisplay ++ writeLines Config.rsInstr Config.opReturnHome

/-! ### The pseudocode of the scanner and the glue -/

/-- `scanCycle()` (spec/42_keypad_scanner.md R173). -/
def scanLines : List Micro :=
  [.activateRow, .sampleMask, .clearCount, .confirmLoop, .accept, .deactivateRow, .advanceRow, .scanDone]

/-- One pass of the confirmation loop (R165). -/
def confirmBody : List Micro := [.delayScan 1, .sampleMask, .bumpCount, .confirmLoop]

/-- One pass of the release-confirmation loop (R170). -/
def releaseBody : List Micro := [.delayScan 1, .releaseSample, .releaseLoop]

/-- What follows an accepted key: the collaborator's program, then the release-confirmation loop (R167, R170). -/
def dispatchLines (calls : List LcdCall) : List Micro := calls.map .call ++ [.clearCount, .releaseLoop]

/-- What follows `initialize` in `startup()` (spec/43_dispatch_and_glue.md R202). -/
def startupTail : List Micro := [.banner, .delayScan Config.tBanner, .call .clear, .mainLoop]

/-- The calls that print the banner, one `writeLine` for each pair (R202). -/
def bannerLines (s : State) : List Micro :=
  (s.env.banner.getD Config.banner).map (fun p => .call (.writeLine p.1.val p.2))

/-! ### Entry checks -/

/-- Whether a driver operation is one of the five that need an initialised LCD (R130(b)). -/
def needsInit : LcdCall → Bool
  | .waitReady => false
  | .initializeLcd => false
  | .writeInstruction _ => true
  | .writeData _ => true
  | .writeLine _ _ => true
  | .writeChar _ => true
  | .clear => true

/-- Whether an operand is outside the operation's domain (R137). -/
def badOperand : LcdCall → Bool
  | .writeLine i _ => decide (2 ≤ i)
  | _ => false

/-- Why a driver operation is refused at its entry, in the order operand, pins, `LCDST` (R130,
spec/60_exceptions.md R227(1)). -/
def entryRefusal (c : LcdCall) (s : State) : Option Refusal :=
  if badOperand c then some .badLineIndex
  else if !s.pinsIdle then some .pinsNotIdle
  else if needsInit c && s.lcdst == .uninitialized then some .lcdNotInitialized
  else none

/-! ### Turns -/

/-- What one turn of the machine is: an instruction to run, a next state, or a refusal. -/
inductive Turn where
  | instr (i : Instr) (s : State)
  | state (s : State)
  | refused (r : Refusal)
  deriving DecidableEq, Repr

/-- The call of a driver operation with its entry checks; the lines `after` follow it. -/
def callTurn (c : LcdCall) (after : List Micro) (s : State) : Turn :=
  match entryRefusal c s with
  | some r => .refused r
  | none => .state (s.pushSeq (callLines c ++ after))

/-- The same as an outcome: how the host issues a driver operation. -/
def issueCall (c : LcdCall) (after : List Micro) (s : State) : Host.Outcome State Fault Refusal :=
  match entryRefusal c s with
  | some r => .refused r
  | none => .next (s.pushSeq (callLines c ++ after))

/-- A collaborator's program issued by the host: its first call is checked at once (spec/60_exceptions.md R224), an
empty program is done. -/
def issueProgram (calls : List LcdCall) (s : State) : Host.Outcome State Fault Refusal :=
  match calls with
  | [] => .next s
  | c :: rest => issueCall c (rest.map .call) s

/-- The end of the poll loop: again while the busy flag is set (R133). -/
def pollUntil (s : State) : State := if busyFlag s.poll then s.pushSeq pollBody else s

/-- The character loop of `writeLine`: the next character is sent unless the text ends, by its end or by a
terminator (R137, spec/20_memory.md R54). -/
def writeText (text : List Byte) (s : State) : State :=
  match text with
  | [] => s
  | c :: rest =>
    if c = Config.terminator then s
    else s.pushSeq (writeLines Config.rsData (Config.charmap c) ++ [.writeText rest])

/-- The head of the confirmation loop (R165). -/
def confirmLoop (s : State) : State :=
  if nonzeroMask s.mask && decide (s.cnt.toNat < Config.confirmCap) then s.pushSeq confirmBody else s

/-- The head of the release-confirmation loop (R170). -/
def releaseLoop (s : State) : State :=
  if s.cnt.toNat < Config.releaseCount then s.pushSeq releaseBody else s

/-- The key code of the sampled mask in the active row (R168, R169). -/
def resolvedKey (s : State) : Fin 25 := keyCode s.row (positionOfSetBit s.env.draws s.mask)

/-- The acceptance test and the dispatch (R166, R167): a mask with exactly one bit set becomes a key event, any other
is discarded. -/
def acceptKey (s : State) : State :=
  if singleMask s.mask then
    (s.emit (.key (resolvedKey s))).pushSeq
      (dispatchLines (dispatchProgram s.env.dispatch (resolvedKey s).val))
  else s

/-- One status read of the poll loop: the environment's byte, decoded from the pins `RS = 0, RW = 1, E = 1` (R132), is
the instruction to run. -/
def statusTurn (s : State) : Turn :=
  let a := lcdAnswer s
  match decodePins (pinWord Config.rsInstr Config.rwRead true a.1) with
  | .ok i => .instr i a.2
  | .rejected _ => .state a.2

/-- The turn of one line; `s` already has the lines after it in `SEQ`. -/
def lineTurn (m : Micro) (s : State) : Turn :=
  match m with
  | .ctl rs rw e => .state (setControlLines rs rw e s)
  | .drive b => .state (driveData b s)
  | .release => .state (releaseData s)
  | .delayBus n => .state (delayBus n s)
  | .delayScan n => .state (delayScan n s)
  | .readStatus => statusTurn s
  | .pollUntil => .state (pollUntil s)
  | .settleReady => .state (settleReady s)
  | .markBusy => .state (markBusy s)
  | .markReady => .state (markReady s)
  | .writeText text => .state (writeText text s)
  | .call c => callTurn c [] s
  | .activateRow => .state (activateRow s)
  | .sampleMask => .state (sampleMask s)
  | .clearCount => .state (clearCount s)
  | .bumpCount => .state (bumpCount s)
  | .confirmLoop => .state (confirmLoop s)
  | .accept => .state (acceptKey s)
  | .releaseLoop => .state (releaseLoop s)
  | .releaseSample => .state (releaseSample s)
  | .deactivateRow => .state (deactivateRow s)
  | .advanceRow => .state (advanceRow s)
  | .scanDone => .state (scanDone s)
  | .banner => .state (s.pushSeq (bannerLines s))
  | .mainLoop => .state (s.pushSeq (scanLines ++ [.mainLoop]))

/-- The attached LCD's turn: it acts on the transaction `w` it took. An instruction byte outside the table is logged
and makes it busy; the reference LCD does nothing else with it (spec/20_memory.md R71), and of another LCD nothing is
said after it (spec/30_encoding.md R99; log entry 10). -/
def deviceTurn (w : PinWord) (s : State) : Turn :=
  match decodePins w with
  | .ok i => .instr i s
  | .rejected (.unassignedInstructionByte b) => .state (lcdTake Config.rsInstr b lcdLogged lcdLogged s)
  | .rejected _ => .state s

/-- The host's turn: between operations it issues its next command, if it has one (spec/00_scope.md R10). -/
def hostTurn (s : State) : Turn :=
  match s.env.program with
  | [] => .state s
  | c :: rest => .instr (decodeCommand c) { s with env := { s.env with program := rest } }

/-- Whose turn it is: the device acts on a byte it has taken; else the sequencer goes on; else the host may issue. -/
def nextTurn (s : State) : Turn :=
  match s.env.lcd.latch with
  | some w => deviceTurn w (s.setLcd { s.env.lcd with latch := none })
  | none =>
    match s.seq with
    | m :: rest => lineTurn m { s with seq := rest }
    | [] => hostTurn s

/-- An encoded instruction placed where the machine takes its next one from: a command before the host's program with
the sequencer idle, a pin word as the transaction the device has taken. -/
def placeInstruction (enc : Encoded) (s : State) : State :=
  match enc with
  | .command c =>
    { s with
      seq := [],
      env := { s.env with program := c :: s.env.program, lcd := { s.env.lcd with latch := none } } }
  | .pins w => s.setLcd { s.env.lcd with latch := some w }

end Sys2Proof.Machine
end

