-- ==== Sys2Proof/Machine/Glue.lean ====
section
/-! DEFINITION. The collaborator and the startup glue as commands (spec/43_dispatch_and_glue.md), and the reserved
words (spec/30_encoding.md R98). -/

namespace Sys2Proof.Machine

/-- `keyEvent(k)`, R201: the collaborator's program for `k`; a code above 24 is refused. -/
def execKeyEvent (k : BitVec 5) (s : State) : Host.Outcome State Fault Refusal :=
  if 24 < k.toNat then .refused .badKeyCode
  else issueProgram (dispatchProgram s.env.dispatch k.toNat) s

/-- `startup()`, R202: `initialize`, the banner, the pause, `clear`, and the scan loop for ever. -/
def execStartup (s : State) : Host.Outcome State Fault Refusal := issueCall .initializeLcd startupTail s

/-- A reserved command word, R98(1). -/
def execReserved (_w : BitVec 12) (_s : State) : Host.Outcome State Fault Refusal := .refused .reservedCommand

end Sys2Proof.Machine
end

