-- ==== Sys2Proof/Machine/KeypadScanner.lean ====
section
/-! DEFINITION. The keypad scanner's one host operation (spec/42_keypad_scanner.md R173). -/

namespace Sys2Proof.Machine

/-- `scanCycle()`, R173: never refused at its entry. -/
def execScanCycle (s : State) : Host.Outcome State Fault Refusal := .next (s.pushSeq scanLines)

end Sys2Proof.Machine
end

