-- ==== Sys2Proof/Machine/LcdBytes.lean ====
section
/-! DEFINITION. The bytes of the LCD bus as instructions (spec/30_encoding.md R84 to R91). An instruction or data
byte is acted on by the attached LCD: by the reference LCD as spec/20_memory.md R71, R72 say, by any other as R84 to
R91 and R99 say; a status byte is read by the block (spec/41_lcd_driver.md R132). -/

namespace Sys2Proof.Machine

/-- `CLEAR_DISPLAY`, R84, R71: every cell blank, the address pointer 0. That it leaves the entry-mode settings of a
LCD other than RefLCD as they are is the model's choice: R84 does not say, and spec/91_not_in_source.md N4 lists it
as not to be assumed (DESIGN CHOICE, log entry 24). -/
def execClearDisplay (s : State) : Host.Outcome State Fault Refusal :=
  .next (lcdTake Config.rsInstr Config.opClearDisplay lcdClear lcdClear s)

/-- `RETURN_HOME`, R85, R71: the address pointer 0 (of an LCD other than RefLCD PRESUMED, log entry 7). -/
def execReturnHome (x : Bool) (s : State) : Host.Outcome State Fault Refusal :=
  .next (lcdTake Config.rsInstr (returnHomeByte x) (lcdPointAt 0#7) (lcdPointAt 0#7) s)

/-- `ENTRY_MODE_SET`, R86: the entry-mode settings; the reference LCD only logs it (R71). -/
def execEntryModeSet (i sh : Bool) (s : State) : Host.Outcome State Fault Refusal :=
  .next (lcdTake Config.rsInstr (entryModeByte i sh) lcdLogged
    (fun e => { e with increment := i, shift := sh }) s)

/-- `DISPLAY_CONTROL`, R87: the display settings; the reference LCD only logs it (R71). -/
def execDisplayControl (d c b : Bool) (s : State) : Host.Outcome State Fault Refusal :=
  .next (lcdTake Config.rsInstr (displayControlByte d c b) lcdLogged
    (fun e => { e with displayOn := d, cursorOn := c, blinkOn := b }) s)

/-- `FUNCTION_SET`, R88: the interface settings, the two low bits ignored; the reference LCD only logs it (R71), and
of another LCD nothing is said after settings other than the document's (R99). -/
def execFunctionSet (l n f : Bool) (x : BitVec 2) (s : State) : Host.Outcome State Fault Refusal :=
  .next (lcdTake Config.rsInstr (functionSetByte l n f x) lcdLogged
    (fun e => { e with eightBit := l, twoLines := n, largeFont := f }) s)

/-- `SET_DDRAM_ADDR`, R89, R71: the address pointer. -/
def execSetDdramAddr (a : BitVec 7) (s : State) : Host.Outcome State Fault Refusal :=
  .next (lcdTake Config.rsInstr (setDdramAddrByte a) (lcdPointAt a) (lcdPointAt a) s)

/-- A status byte, R90: the block samples it in its poll loop; only bit 7 is looked at afterwards (R133). -/
def execStatus (b : Bool) (a : BitVec 7) (s : State) : Host.Outcome State Fault Refusal :=
  .next (readStatus (statusByte b a) s)

/-- A data byte, R91, R72: stored at the address pointer, which then moves. -/
def execData (d : Byte) (s : State) : Host.Outcome State Fault Refusal :=
  .next (lcdTake Config.rsData d (refStore d) (lcdStore d) s)

end Sys2Proof.Machine
end

