-- ==== Sys2Proof/Machine/LcdDriver.lean ====
section
/-! DEFINITION. The host's operations of the LCD protocol driver (spec/41_lcd_driver.md). Issuing one runs the entry
checks of R130 and starts its lines; the sequencer runs them, one line a step, and a wait that never ends is a run that
never ends (R133, spec/60_exceptions.md R222). -/

namespace Sys2Proof.Machine

/-- `waitReady()`, R133. -/
def execWaitReady (s : State) : Host.Outcome State Fault Refusal := issueCall .waitReady [] s

/-- `writeInstruction(code)`, R134. -/
def execWriteInstruction (code : Byte) (s : State) : Host.Outcome State Fault Refusal :=
  issueCall (.writeInstruction code) [] s

/-- `writeData(byte)`, R135. -/
def execWriteData (b : Byte) (s : State) : Host.Outcome State Fault Refusal := issueCall (.writeData b) [] s

/-- `initialize()`, R136. -/
def execInitializeLcd (s : State) : Host.Outcome State Fault Refusal := issueCall .initializeLcd [] s

/-- `writeLine(lineIndex, text)`, R137. -/
def execWriteLine (lineIndex : Nat) (text : List Byte) (s : State) : Host.Outcome State Fault Refusal :=
  issueCall (.writeLine lineIndex text) [] s

/-- `writeChar(c)`, R138. -/
def execWriteChar (c : Byte) (s : State) : Host.Outcome State Fault Refusal := issueCall (.writeChar c) [] s

/-- `clear()`, R139. -/
def execClear (s : State) : Host.Outcome State Fault Refusal := issueCall .clear [] s

end Sys2Proof.Machine
end

