-- ==== Sys2Proof/Machine/Dispatch.lean ====
section
/-! DEFINITION. One arm per instruction: each is one call of its meaning. -/

namespace Sys2Proof.Machine

def exec (i : Instr) (s : State) : Host.Outcome State Fault Refusal :=
  match i with
  | .setControlLines rs rw e => Sys2Proof.Machine.execSetControlLines rs rw e s
  | .driveData b => Sys2Proof.Machine.execDriveData b s
  | .readData => Sys2Proof.Machine.execReadData s
  | .releaseData => Sys2Proof.Machine.execReleaseData s
  | .delayBus n => Sys2Proof.Machine.execDelayBus n s
  | .waitReady => Sys2Proof.Machine.execWaitReady s
  | .writeInstruction code => Sys2Proof.Machine.execWriteInstruction code s
  | .writeData b => Sys2Proof.Machine.execWriteData b s
  | .initializeLcd => Sys2Proof.Machine.execInitializeLcd s
  | .writeLine lineIndex text => Sys2Proof.Machine.execWriteLine lineIndex text s
  | .writeChar c => Sys2Proof.Machine.execWriteChar c s
  | .clear => Sys2Proof.Machine.execClear s
  | .scanCycle => Sys2Proof.Machine.execScanCycle s
  | .keyEvent k => Sys2Proof.Machine.execKeyEvent k s
  | .startup => Sys2Proof.Machine.execStartup s
  | .reserved w => Sys2Proof.Machine.execReserved w s
  | .clearDisplay => Sys2Proof.Machine.execClearDisplay s
  | .returnHome x => Sys2Proof.Machine.execReturnHome x s
  | .entryModeSet im sh => Sys2Proof.Machine.execEntryModeSet im sh s
  | .displayControl d c b => Sys2Proof.Machine.execDisplayControl d c b s
  | .functionSet l n f x => Sys2Proof.Machine.execFunctionSet l n f x s
  | .setDdramAddr a => Sys2Proof.Machine.execSetDdramAddr a s
  | .status b a => Sys2Proof.Machine.execStatus b a s
  | .data d => Sys2Proof.Machine.execData d s

end Sys2Proof.Machine
end

