-- ==== Sys2Proof/Machine/Step.lean ====
section
/-! DEFINITION. One step of the machine, and where an instruction is placed to be the next one run. -/

namespace Sys2Proof.Machine

/-- One step: the attached LCD acts on a byte it took, or the sequencer runs its next line, or the host issues its
next command; with none of these the machine stays idle. -/
def step (s : State) : Host.Outcome State Fault Refusal :=
  match nextTurn s with
  | .instr i t => exec i t
  | .state t => .next t
  | .refused r => .refused r

/-- `s` with the instruction of the opcode table's word placed where the next step takes it. -/
def State.withFetchWord (s : State) (nbits w : Nat) : State :=
  match presentTableWord nbits w with
  | some enc => placeInstruction enc s
  | none => s

end Sys2Proof.Machine
end

