-- ==== Sys2Proof/Safety.lean ====
section
/-! DEFINITION. The terms claims are stated in: runs, the trace notation of spec/95_test_vectors.md section 0, what
the attached LCD does with a byte (spec/20_memory.md R71, R72; spec/30_encoding.md R84 to R91, R99), and what a safe
run is: the bus discipline of spec/70_reset_and_hazards.md R260 to R263 as a monitor over the trace. -/

namespace Sys2Proof.Machine

/-! ### Runs -/

/-- Some number of steps takes `s` to `t`, with no refusal on the way. -/
def Reaches (s t : State) : Prop := ∃ n, Host.Core.run Sys2Proof.core n s = .next t

/-- The machine answers a next state `t` for `i`, and goes on from it to `u`. -/
def PassesThrough (i : Instr) (s u : State) : Prop := ∃ t, exec i s = .next t ∧ Reaches t u

/-- The machine answers a next state for `i` and goes on from it to `u`, where nothing `i` had to do is left: the
lines still to run are those that were. -/
def Completes (i : Instr) (s u : State) : Prop := PassesThrough i s u ∧ u.seq = s.seq

/-! ### Trace notation (spec/95_test_vectors.md section 0) -/

/-- `W(rs, v)`, R131. -/
def writeTrace (rs : Bool) (v : Byte) : List Event :=
  [.ctl rs false false, .drive v, .delayBus 1, .ctl rs false true, .delayBus 1, .ctl rs false false, .delayBus 1,
   .release]

/-- `P(b)`, R132. -/
def pollTrace (b : Byte) : List Event :=
  [.ctl false true true, .delayBus 1, .sample b, .ctl false true false, .delayBus 1]

/-- `WR(b_1, ..., b_k)`, R133. -/
def waitTrace (bs : List Byte) : List Event :=
  [.ctl false true false, .delayBus 1] ++ bs.flatMap pollTrace ++ [.ctl false false false]

/-- The answers of one wait: status bytes with the busy flag set, then one with it clear. -/
structure Wait where
  busy : List Byte
  ready : Byte
  deriving DecidableEq, Repr

/-- A wait's answers are as R133's loop reads them: it leaves at the first byte with bit 7 clear. -/
def Wait.ok (w : Wait) : Bool := w.busy.all busyFlag && !busyFlag w.ready

/-- The answers in order. -/
def Wait.answers (w : Wait) : List Byte := w.busy ++ [w.ready]

/-- One byte written, with the answers of the wait that follows it (R134, R135). -/
structure ByteWrite where
  rs : Bool
  byte : Byte
  wait : Wait
  deriving DecidableEq, Repr

/-- The events of a byte written and waited for: `W(rs, v)` then `WR(..)`. -/
def ByteWrite.trace (w : ByteWrite) : List Event := writeTrace w.rs w.byte ++ waitTrace w.wait.answers

/-- The register-select level and the byte. -/
def ByteWrite.sent (w : ByteWrite) : Bool × Byte := (w.rs, w.byte)

/-- The answers of the waits of a series of writes, in order. -/
def answersOf (ws : List ByteWrite) : List Byte := ws.flatMap (fun w => w.wait.answers)

/-- The events of a series of writes. -/
def traceOf (ws : List ByteWrite) : List Event := ws.flatMap ByteWrite.trace

/-- The last status byte read in a series of writes, `b` where it is empty. -/
def lastPoll (b : Byte) (ws : List ByteWrite) : Byte := ws.foldl (fun _ w => w.wait.ready) b

/-! ### The attached LCD, byte by byte (spec/20_memory.md R71, R72; spec/30_encoding.md R84 to R91, R99) -/

/-- What the reference LCD becomes when it takes the byte `b` with register-select `rs`: R71 and R72, by the value of
the byte. -/
def refReceive (rs : Bool) (b : Byte) (d : LcdDevice) : LcdDevice :=
  let logged := { d with log := d.log ++ [(rs, b)], busyN := d.busyLat }
  if rs then { logged with ddram := Memory.write d.ddram d.ac.toNat b, ac := d.ac + 1#7 }
  else if b = Config.opClearDisplay then { logged with ddram := [], ac := 0#7 }
  else if b = Config.opReturnHome ∨ b = (Config.opReturnHome ||| 1#8) then { logged with ac := 0#7 }
  else if 0x80 ≤ b.toNat then { logged with ac := BitVec.ofNat 7 b.toNat }
  else logged

/-- The bytes R99 does not name, by value: every data byte, and of the instruction bytes those of R84 to R87 and R89
and the function-set with the document's settings. -/
def statedByte (rs : Bool) (b : Byte) : Bool :=
  rs || (decide (0x01 ≤ b.toNat) && decide (b.toNat ≤ 0x0F)) || (b &&& 0xFC#8) == Config.opFunctionSet
    || decide (0x80 ≤ b.toNat)

/-- Whether a function-set was the first byte given (R264), by the value of the byte. -/
def functionSetFirst : List (Bool × Byte) → Bool
  | [] => false
  | (rs, b) :: _ => !rs && (b &&& 0xE0#8) == 0x20#8

/-- What an LCD other than RefLCD becomes when it acts on a byte, by the value of the byte: R84 to R91, and nothing
said of it from the first byte of R99 or breach of the bus discipline on (U3, U4, U6), nor where a function-set was
not its first byte (R264, U12). Past the character positions of
a line nothing is said of the cells and the pointer (R52, U1). The settings as registers and the effect of
clear-display and return-home are the model's (log entries 7, 8, 9, 24), and so is when nothing is said (log entries
10, 25, 26). -/
def otherReceive (rs : Bool) (b : Byte) (d : LcdDevice) : LcdDevice :=
  let logged := { d with log := d.log ++ [(rs, b)], busyN := d.busyLat }
  if d.slips ≠ 0 ∨ functionSetFirst logged.log = false ∨ (logged.log.all (fun p => statedByte p.1 p.2)) = false then
    lcdUndescribed logged
  else if rs then
    if d.ac.toNat % 64 < d.cols.getD Config.lcdCols then
      { logged with ddram := Memory.write d.ddram d.ac.toNat b, ac := nextAddress logged }
    else
      { logged with
        ddram := Memory.ofCells (Config.lcdCell logged.log d.slips), ac := Config.lcdPointer logged.log d.slips }
  else if b = Config.opClearDisplay then { logged with ddram := [], ac := 0#7 }
  else if b = Config.opReturnHome ∨ b = (Config.opReturnHome ||| 1#8) then { logged with ac := 0#7 }
  else if 0x80 ≤ b.toNat then { logged with ac := BitVec.ofNat 7 b.toNat }
  else if 0x20 ≤ b.toNat then
    { logged with eightBit := b.getLsbD 4, twoLines := b.getLsbD 3, largeFont := b.getLsbD 2 }
  else if 0x08 ≤ b.toNat then
    { logged with displayOn := b.getLsbD 2, cursorOn := b.getLsbD 1, blinkOn := b.getLsbD 0 }
  else { logged with increment := b.getLsbD 1, shift := b.getLsbD 0 }

/-- What the attached LCD becomes when it acts on a byte, whichever it is. -/
def receive (p : LcdParty) (rs : Bool) (b : Byte) (d : LcdDevice) : LcdDevice :=
  match p with
  | .reference => refReceive rs b d
  | .oracle _ => otherReceive rs b d

/-- An LCD whose control lines change, or whose bus is driven, without a delay since the last drive or edge of `E`:
one breach more, and nothing said of its state (R262, U3). -/
def settledLcd (p : LcdParty) (d : LcdDevice) : LcdDevice :=
  match p with
  | .reference => d
  | .oracle _ => { (if d.settled then d else lcdUndescribed { d with slips := d.slips + 1 }) with settled := true }

/-- The attached LCD after a wait from the idle pin state: a status read has shown it ready (R133, R263). -/
def rested (p : LcdParty) (d : LcdDevice) : LcdDevice :=
  match p with
  | .reference => d
  | .oracle _ => { settledLcd p d with owed := false }

/-- The attached LCD after polls from read mode that all showed it busy: a ready status is owed (R263, U4). -/
def polledBusy (p : LcdParty) (d : LcdDevice) : LcdDevice :=
  match p with
  | .reference => d
  | .oracle _ => { settledLcd p d with owed := true }

/-- The breaches of a write cycle that begins in the idle pin state: none where a delay has passed since the last drive
or edge of `E` and no ready status is owed (R262, R263); else the change of `RS`, the drive and the rise of `E`. -/
def writeSlips (rs : Bool) (d : LcdDevice) : Nat :=
  (if rs = true ∧ d.settled = false then 1 else 0) + (if d.settled = false ∨ d.owed = true then 1 else 0)
    + (if d.owed = true then 1 else 0)

/-- The attached LCD after a write cycle from the idle pin state (R131): it has acted on the byte, and a ready status
is owed (R263). -/
def written (p : LcdParty) (rs : Bool) (b : Byte) (d : LcdDevice) : LcdDevice :=
  match p with
  | .reference => refReceive rs b d
  | .oracle _ =>
    { otherReceive rs b { d with slips := d.slips + writeSlips rs d } with settled := true, owed := true }

/-- What the attached LCD is after an event on its bus from `s`, apart from a byte it is given: the reference LCD as it
was; another as it was but for the record of R262 and R263, one breach more and nothing said of its pointer, cells
and settings where the event breaks the discipline (U3, U4, U6). -/
def Hears (s : State) (ev : Event) (d : LcdDevice) : Prop :=
  (s.env.lcdParty = .reference → d = s.env.lcd)
    ∧ (s.env.lcdParty ≠ .reference →
      d.settled = (s.busView.next ev).waited ∧ d.owed = (s.busView.next ev).owed
        ∧ (s.busView.breaks ev = false → d = { s.env.lcd with settled := d.settled, owed := d.owed })
        ∧ (s.busView.breaks ev = true → d.slips = s.env.lcd.slips + 1))
    ∧ d.log = s.env.lcd.log ∧ d.busyN = s.env.lcd.busyN ∧ d.latch = s.env.lcd.latch

/-- A series of bytes, each written and waited for. -/
def receiveAll (p : LcdParty) (ws : List ByteWrite) (d : LcdDevice) : LcdDevice :=
  ws.foldl (fun d w => rested p (written p w.rs w.byte d)) d

/-- The state after a series of completed writes, the environment having given their answers and having `rest` left:
the trace, the poll variable, the device and the answers left are new, everything else is as before. -/
def afterWrites (ws : List ByteWrite) (rest : List Byte) (s : State) : State :=
  { s with
    trace := s.trace ++ traceOf ws,
    poll := lastPoll s.poll ws,
    env := { s.env with lcdParty := .oracle rest, lcd := receiveAll s.env.lcdParty ws s.env.lcd } }

/-- Between a write cycle and the end of the wait after it: the head of the poll loop (R131, R133, R134, R135). The
attached LCD has the byte, the driver's record is `Busy`, the block is in read mode. -/
def atPollLoop (rs : Bool) (b : Byte) (s : State) : State :=
  { s with
    rw := true, lcdst := .busy,
    seq := pollBody ++ [.ctl Config.rsInstr Config.rwWrite false, .settleReady] ++ s.seq,
    trace := s.trace ++ writeTrace rs b ++ [.ctl false true false, .delayBus 1],
    env := { s.env with lcd := written s.env.lcdParty rs b s.env.lcd } }

/-- The bytes a driver operation writes, each with its register-select level (R134 to R139). -/
def sends : LcdCall → List (Bool × Byte)
  | .waitReady => []
  | .writeInstruction c => [(false, c)]
  | .writeData b => [(true, b)]
  | .initializeLcd =>
    [(false, Config.opFunctionSet), (false, Config.opDisplayControl), (false, Config.opClearDisplay),
      (false, Config.opEntryMode), (false, Config.opReturnHome)]
  | .writeLine i text =>
    (false, Config.opSetDdram ||| (if i = 0 then 0x00#8 else 0x40#8)) :: text.map (fun c => (true, Config.charmap c))
  | .writeChar c => [(true, Config.charmap c)]
  | .clear => [(false, Config.opClearDisplay), (false, Config.opReturnHome)]

/-- A call of one of the five writing operations, its operands in their domains (R130(b), R137). -/
def isWriteCall (c : LcdCall) : Bool :=
  needsInit c && !badOperand c &&
    match c with
    | .writeLine _ text => textOk text
    | _ => true

/-- The state after one completed wait, from the idle pin state. -/
def afterWait (w : Wait) (rest : List Byte) (s : State) : State :=
  { s with
    trace := s.trace ++ waitTrace w.answers,
    poll := w.ready,
    env := { s.env with lcdParty := .oracle rest, lcd := rested s.env.lcdParty s.env.lcd } }

/-! ### The bus discipline as a monitor over the trace -/

/-- What the monitor remembers: the bus as the trace shows it, and whether all was well so far. -/
structure Watch where
  view : BusView
  ok : Bool
  deriving DecidableEq, Repr

/-- Before the first event: the idle pin state, nothing owed. -/
def BusView.idle : BusView := { rs := false, rw := false, e := false, out := false, waited := true, owed := false }

/-- Before the first event. -/
def Watch.start : Watch := { view := BusView.idle, ok := true }

/-- A sample is taken only in a status read (R25, R262). -/
def BusView.samplesWell (v : BusView) : Event → Bool
  | .sample _ => v.asked
  | _ => true

/-- One event: it breaks no rule of the discipline (`BusView.breaks`), and a sample is asked for. -/
def Watch.next (w : Watch) (ev : Event) : Watch :=
  { view := w.view.next ev, ok := w.ok && !w.view.breaks ev && w.view.samplesWell ev }

/-- The monitor after a whole trace. -/
def watch (t : List Event) : Watch := t.foldl Watch.next Watch.start

/-! ### The same discipline over the lines still to run -/

/-- The part of the monitor's memory that the lines of `SEQ` determine; `sampled` says that a status byte was read
since the last byte was given to the device. -/
structure Phase where
  view : BusView
  sampled : Bool
  deriving DecidableEq, Repr

/-- Between operations. -/
def Phase.idle : Phase := { view := BusView.idle, sampled := false }

/-- After an event: what was sampled no longer counts once another byte is given to the device. -/
def Phase.next (p : Phase) (ev : Event) : Phase :=
  { view := p.view.next ev, sampled := p.sampled && !p.view.givesByte ev }

/-- Whether the lines of `SEQ`, run from phase `p`, keep the discipline and end between operations. The lines that
call an operation start between operations; the loops return to the phase they start in. -/
def linesOk : Phase → List Micro → Bool
  | p, [] => p == Phase.idle
  | p, .ctl rs rw e :: r => !p.view.breaks (.ctl rs rw e) && linesOk (p.next (.ctl rs rw e)) r
  | p, .drive b :: r => !p.view.breaks (.drive b) && linesOk (p.next (.drive b)) r
  | p, .release :: r => !p.view.breaks .release && linesOk (p.next .release) r
  | p, .delayBus n :: r => linesOk (p.next (.delayBus n)) r
  | p, .readStatus :: r =>
    p.view.asked && linesOk { view := { p.view with owed := true }, sampled := true } r
  | p, .pollUntil :: r =>
    !p.view.rs && p.view.rw && !p.view.e && !p.view.out && p.view.waited && p.sampled
      && linesOk { view := { p.view with owed := false }, sampled := false } r
  | p, .writeText _ :: r => p == Phase.idle && linesOk p r
  | p, .call _ :: r => p == Phase.idle && linesOk p r
  | p, .accept :: r => p == Phase.idle && linesOk p r
  | p, .banner :: r => p == Phase.idle && linesOk p r
  | p, .mainLoop :: r => p == Phase.idle && linesOk p r
  | p, .delayScan _ :: r => linesOk p r
  | p, .settleReady :: r => linesOk p r
  | p, .markBusy :: r => linesOk p r
  | p, .markReady :: r => linesOk p r
  | p, .activateRow :: r => linesOk p r
  | p, .sampleMask :: r => linesOk p r
  | p, .clearCount :: r => linesOk p r
  | p, .bumpCount :: r => linesOk p r
  | p, .confirmLoop :: r => linesOk p r
  | p, .releaseLoop :: r => linesOk p r
  | p, .releaseSample :: r => linesOk p r
  | p, .deactivateRow :: r => linesOk p r
  | p, .advanceRow :: r => linesOk p r
  | p, .scanDone :: r => linesOk p r

/-- The monitor's memory is what the phase says, a ready status being owed at most where the phase says so, and not at
all once the poll variable shows a ready status. -/
def Phase.matches (p : Phase) (w : Watch) (poll : Byte) : Bool :=
  w.ok && (w.view == { p.view with owed := w.view.owed }) && (!w.view.owed || p.view.owed)
    && (!p.sampled || busyFlag poll || !w.view.owed)

/-- A host command that is no bus primitive: `op` 0x5 and above (R261). -/
def isDriverCommand (c : HostCommand) : Bool := decide (5 ≤ (opField c.word).toNat)

/-- What the device took, if anything, is a byte written to it. -/
def latchIsWrite (s : State) : Bool :=
  match s.env.lcd.latch with
  | none => true
  | some w => !w.getLsbD 9

/-- A safe run so far, and the means to stay one: the monitor is content, the lines still to run keep the discipline
from where it stands, and the host has no bus primitive to issue. -/
def Polite (s : State) : Prop :=
  (∃ p : Phase, p.matches (watch s.trace) s.poll = true ∧ linesOk p s.seq = true)
    ∧ s.env.program.all isDriverCommand = true
    ∧ latchIsWrite s = true

/-! ### Durations (spec/70_reset_and_hazards.md R270, R271): lower bounds only -/

/-- The units of `T_BUS` in a trace. -/
def busUnits : List Event → Nat
  | [] => 0
  | .delayBus n :: t => n + busUnits t
  | _ :: t => busUnits t

/-- The units of `T_SCAN` in a trace. -/
def scanUnits : List Event → Nat
  | [] => 0
  | .delayScan n :: t => n + scanUnits t
  | _ :: t => scanUnits t

/-- The least time a trace takes, in whatever unit `T_BUS` and `T_SCAN` are given. -/
def leastTime (t : List Event) : Nat := busUnits t * Config.tBus + scanUnits t * Config.tScan

/-- The events from `s` to `u` hold `bus` units of `T_BUS` and `scan` units of `T_SCAN`. -/
def Delays (s u : State) (bus scan : Nat) : Prop :=
  ∃ added, u.trace = s.trace ++ added ∧ busUnits added = bus ∧ scanUnits added = scan

/-! ### The host's side of the contract -/

/-- A text that stays within the physical width of a line of the LCD (R265, U1), and within its span (R60). -/
def fitsLine (d : LcdDevice) (text : List Byte) : Prop :=
  text.length ≤ d.cols.getD Config.lcdCols ∧ text.length ≤ 64

/-- The row words the block drives: none, or exactly one (spec/30_encoding.md R92, spec/10_state.md R29). -/
def legalRowWord (v : KeyWord) : Bool := v == 0#5 || singleMask v

/-- How many columns of the release-confirmation loop's samples have been zero without interruption, counted as R170
counts them. -/
def quietCount : List KeyWord → Nat → Nat
  | [], n => n
  | m :: ms, n => if m = 0#5 then quietCount ms (n + 1) else quietCount ms 0

end Sys2Proof.Machine
end

