-- ==== Sys2Proof/Certificates/Slice0/Obligations.lean ====
section
/-! DEFINITION. The statements for the provers. Every statement about a run quantifies over the environment's answers:
an answer list in `lcdParty` or `keyParty` is what the environment gives next, and it may be any list. -/

open Sys2Proof Sys2Proof.Machine

/-! ### Encoding -/

/-- Every well-formed instruction is read back from its words (spec/30_encoding.md R84 to R98). -/
def Obligations.DecodeReadsBackEveryEncoding : Prop :=
  ∀ i : Instr, i.wellFormed = true → decode (encode i) = .ok i

/-- Every one of the 4096 command words is written back bit for bit from what it decodes to (R95, R96, R98). -/
def Obligations.EncodeWritesBackEveryCommandWord : Prop :=
  ∀ w : BitVec 12, encode (decodeCommand ⟨w, []⟩) = .command ⟨w, []⟩

/-- A command decodes to the reserved row exactly where its word is one of those item (1) of R98 lists, whatever text
accompanies it. -/
def Obligations.ReservedWordsAreExactlyThoseListed : Prop :=
  ∀ c : HostCommand, decodeCommand c = .reserved c.word ↔ isReservedWord c.word = true

/-- Words written out from the spec's tables (spec/95_test_vectors.md B1, B3, X2, L6 and the keyEvent table;
spec/30_encoding.md R84 to R91) decode to what they stand for. -/
def Obligations.SpecWordsDecode : Prop :=
  decodeCommand ⟨0x005#12, []⟩ = .setControlLines true false true
    ∧ decodeCommand ⟨0x1A5#12, []⟩ = .driveData 0xA5#8
    ∧ decodeCommand ⟨0x901#12, [0x41#8]⟩ = .writeLine 1 [0x41#8]
    ∧ decodeCommand ⟨0xD18#12, []⟩ = .keyEvent 24#5
    ∧ decodeCommand ⟨0x501#12, []⟩ = .reserved 0x501#12
    ∧ decodePins (pinWord false false true 0x3C#8) = .ok (.functionSet true true true 0#2)
    ∧ decodePins (pinWord false false true 0x0C#8) = .ok (.displayControl true false false)
    ∧ decodePins (pinWord false false true 0x06#8) = .ok (.entryModeSet true false)
    ∧ decodePins (pinWord false false true 0xC0#8) = .ok (.setDdramAddr 0x40#7)
    ∧ decodePins (pinWord false true true 0x83#8) = .ok (.status true 3#7)
    ∧ decodePins (pinWord true false true 0x68#8) = .ok (.data 0x68#8)

/-! ### A step runs the decoded instruction -/

/-- Between operations the host's next command, decoded, is the instruction the step runs; the command is gone from
the host's program and nothing else is changed by issuing it. That the host's program is a list in the state, and that
with nothing to issue the machine stays as it is, is the model's choice (log entry 6), no rule of the spec. -/
def Obligations.StepRunsTheHostsNextCommand : Prop :=
  ∀ s : State, s.env.lcd.latch = none → s.seq = [] →
    (∀ (c : HostCommand) (rest : List HostCommand), s.env.program = c :: rest →
      step s = exec (decodeCommand c) { s with env := { s.env with program := rest } })
      ∧ (s.env.program = [] → step s = .next s)

/-- A transaction the attached LCD has taken, decoded, is the instruction the step runs; the transaction is gone and
nothing else is changed by taking it. That it waits in `latch` and is run in a step of its own, before any other, is
the model's (log entry 7, DEDUCED), no rule of the spec. -/
def Obligations.StepRunsTheByteTheLcdTook : Prop :=
  ∀ (s : State) (w : PinWord) (i : Instr),
    s.env.lcd.latch = some w → decodePins w = .ok i →
      step s = exec i { s with env := { s.env with lcd := { s.env.lcd with latch := none } } }

/-- A status read of the poll loop runs the status byte the environment answered with. -/
def Obligations.StepRunsTheStatusByteRead : Prop :=
  ∀ (s : State) (b : Byte) (answers : List Byte) (rest : List Micro),
    s.env.lcd.latch = none → s.seq = .readStatus :: rest → s.env.lcdParty = .oracle (b :: answers) →
      step s = exec (.status (b.getLsbD 7) (b.extractLsb' 0 7))
        { s with seq := rest, env := { s.env with lcdParty := .oracle answers } }

/-! ### Reset -/

/-- The values spec/10_state.md R38 gives for reset (`MASK` and `CNT` have none), and the empty trace of
spec/70_reset_and_hazards.md R250. -/
def Obligations.ResetLeavesTheValuesTheSpecGives : Prop :=
  State.reset.rs = false ∧ State.reset.rw = false ∧ State.reset.e = false
    ∧ State.reset.dout = 0x00#8 ∧ State.reset.ddir = .input ∧ State.reset.lcdst = .uninitialized
    ∧ State.reset.row = 0 ∧ State.reset.rowout = 0b00000#5 ∧ State.reset.seq = [] ∧ State.reset.trace = []

/-! ### Bus transaction primitive (spec/40_bus_primitive.md) -/

/-- R110: the three lines in one operation and one event; only the lines, the trace and the attached LCD are changed:
what it has taken, where a write pulse ends (log entry 7), and its view of the bus (log entry 25). -/
def Obligations.SetControlLinesSetsThreeLines : Prop :=
  ∀ (rs rw e : Bool) (s : State),
    encode (.setControlLines rs rw e) =
        .command ⟨0x0#4 ++ (0#5 ++ BitVec.ofBool rs ++ BitVec.ofBool rw ++ BitVec.ofBool e), []⟩
      ∧ ∃ d, Hears s (.ctl rs rw e) d ∧ exec (.setControlLines rs rw e) s = .next
        { s with
          rs := rs, rw := rw, e := e, trace := s.trace ++ [.ctl rs rw e],
          env :=
            { s.env with
              lcd :=
                { d with
                  latch :=
                    if s.e = true ∧ e = false ∧ s.rw = false ∧ rw = false ∧ rs = s.rs ∧ s.ddir = .output then
                      some (pinWord rs false true s.dout)
                    else s.env.lcd.latch } } }

/-- R111: the bus becomes an output latching the byte; nothing else but the trace is changed, and the attached LCD's
view of the bus (log entry 25). -/
def Obligations.DriveDataLatchesTheByte : Prop :=
  ∀ (b : Byte) (s : State),
    encode (.driveData b) = .command ⟨0x1#4 ++ b, []⟩
      ∧ ∃ d, Hears s (.drive b) d ∧ exec (.driveData b) s = .next
        { s with ddir := .output, dout := b, trace := s.trace ++ [.drive b], env := { s.env with lcd := d } }

/-- R112: the bus becomes an input, one byte is sampled and given as the result; `DOUT`, the control lines and every
other field of the block are unchanged, and so is the reference LCD but for its count of busy reads; another LCD's
view of the bus is log entry 25's. Whoever answers; where the environment's next answer is `b`, the byte is `b`. -/
def Obligations.ReadDataSamplesOneByte : Prop :=
  ∀ s : State, ∃ (b : Byte) (env : Environment),
    encode .readData = .command ⟨0x200#12, []⟩
      ∧ exec .readData s = .next
        { s with ddir := .input, result := b, trace := s.trace ++ [.sample b], env := env }
      ∧ env = { s.env with lcdParty := env.lcdParty, draws := env.draws, lcd := env.lcd }
      ∧ (s.env.lcdParty = .reference → env.lcd = { s.env.lcd with busyN := env.lcd.busyN })
      ∧ (s.env.lcdParty ≠ .reference → Hears s (.sample b) env.lcd)
      ∧ ∀ (x : Byte) (rest : List Byte), s.env.lcdParty = .oracle (x :: rest) →
          b = x ∧ env.lcdParty = .oracle rest ∧ env.draws = s.env.draws

/-- R113: the bus back to the all-zero input state; nothing else but the trace is changed, and the attached LCD's view
of the bus (log entry 25). Called while the bus is neutral already it changes nothing, of whichever LCD is attached
either, and still emits its event. -/
def Obligations.ReleaseDataNeutralisesTheBus : Prop :=
  ∀ s : State,
    encode .releaseData = .command ⟨0x300#12, []⟩
      ∧ (s.dout = 0x00#8 → s.ddir = .input →
        exec .releaseData s = .next { s with trace := s.trace ++ [.release] })
      ∧ ∃ d, Hears s .release d ∧ exec .releaseData s = .next
        { s with dout := 0x00#8, ddir := .input, trace := s.trace ++ [.release], env := { s.env with lcd := d } }

/-- R114: the delay is an event and changes no state of the block; the attached LCD's view of the bus is log entry
25's. -/
def Obligations.DelayBusOnlyEmitsItsEvent : Prop :=
  ∀ (n : Byte) (s : State),
    encode (.delayBus n) = .command ⟨0x4#4 ++ n, []⟩
      ∧ ∃ d, Hears s (.delayBus n.toNat) d ∧ exec (.delayBus n) s = .next
        { s with trace := s.trace ++ [.delayBus n.toNat], env := { s.env with lcd := d } }

/-! ### LCD protocol driver (spec/41_lcd_driver.md) -/

/-- R133: `waitReady` polls until a status byte has bit 7 clear, with the trace `WR(..)`; it ends in the idle pin
state it started in, `Busy` becomes `Ready`, and nothing else of the block is changed. What the attached LCD's record
of the bus becomes is `rested` (log entry 25). -/
def Obligations.WaitReadyPollsUntilReady : Prop :=
  ∀ (s : State) (w : Wait) (rest : List Byte),
    s.pinsIdle = true → s.env.lcd.latch = none → w.ok = true → s.env.lcdParty = .oracle (w.answers ++ rest) →
      Completes .waitReady s
        { afterWait w rest s with lcdst := if s.lcdst = .busy then .ready else s.lcdst }

/-- R134: `writeInstruction` puts any byte on the bus with `RS = 0` and waits: after the write cycle `LCDST` is `Busy`
at the head of the poll loop (R27(2)), whatever the device then answers, and `Ready` at the end of the wait. The
attached LCD is given the byte whatever it is (R99); what becomes of it is `written`: the model's where log entries 7
to 10 and 24 to 26 say, and free values after a byte R99 names, where the bus was not at rest before (U3, U4), or
where a function-set was not the first byte (R264). -/
def Obligations.WriteInstructionWritesAndWaits : Prop :=
  ∀ (s : State) (code : Byte) (w : Wait) (rest : List Byte),
    s.pinsIdle = true → s.lcdst ≠ .uninitialized → s.env.lcd.latch = none → w.ok = true →
    s.env.lcdParty = .oracle (w.answers ++ rest) →
      PassesThrough (.writeInstruction code) s (atPollLoop false code s)
        ∧ Completes (.writeInstruction code) s { afterWrites [⟨false, code, w⟩] rest s with lcdst := .ready }

/-- R135, R138: `writeData` and `writeChar` put the byte on the bus with `RS = 1` and wait: after the write cycle
`LCDST` is `Busy` at the head of the poll loop (R27(2)), and `Ready` at the end of the wait; the trace and the state
after are the same for both. Which way the pointer of an LCD other than RefLCD moves (R86) and that it and the cells
are free values past an end of a line are the model's (log entry 9); the settings it reads are log entry 8's. -/
def Obligations.WriteDataAndWriteCharWriteAndWait : Prop :=
  ∀ (s : State) (b : Byte) (w : Wait) (rest : List Byte),
    s.pinsIdle = true → s.lcdst ≠ .uninitialized → s.env.lcd.latch = none → w.ok = true →
    s.env.lcdParty = .oracle (w.answers ++ rest) →
      (PassesThrough (.writeData b) s (atPollLoop true b s)
          ∧ Completes (.writeData b) s { afterWrites [⟨true, b, w⟩] rest s with lcdst := .ready })
        ∧ PassesThrough (.writeChar b) s (atPollLoop true (Config.charmap b) s)
        ∧ Completes (.writeChar b) s { afterWrites [⟨true, Config.charmap b, w⟩] rest s with lcdst := .ready }

/-- R136: `initialize`, from any `LCDST`: a leading wait, then function-set, display-control, clear-display,
entry-mode and return-home in that order, each waited for; `LCDST` ends `Ready`. The attached LCD is what `receiveAll`
makes of the bytes (log entries 7 to 10, 24 to 26). -/
def Obligations.InitializeRunsTheFixedSequence : Prop :=
  ∀ (s : State) (lead : Wait) (ws : List ByteWrite) (rest : List Byte),
    s.pinsIdle = true → s.env.lcd.latch = none → lead.ok = true → (∀ w ∈ ws, w.wait.ok = true) →
    ws.map ByteWrite.sent =
      [(false, Config.opFunctionSet), (false, Config.opDisplayControl), (false, Config.opClearDisplay),
        (false, Config.opEntryMode), (false, Config.opReturnHome)] →
    s.env.lcdParty = .oracle (lead.answers ++ answersOf ws ++ rest) →
      Completes .initializeLcd s
        { afterWrites ws rest (afterWait lead (answersOf ws ++ rest) s) with lcdst := .ready }

/-- R137: `writeLine` sends the set-address byte of the line (0x80 or 0xC0 by the parameters) and then each character
of the text in ascending order, each waited for, whatever its length. The attached LCD is what `receiveAll` makes of the
bytes (log entries 7 to 10, 24 to 26). Where the text fits the line (R265), the bus was at rest before, and the spec
describes the LCD, whose entry mode increments (R52), the line shows the text from its first position on and every
other cell is as it was; of a text that does not fit nothing is said of the display (U1). -/
def Obligations.WriteLineSendsAddressThenText : Prop :=
  ∀ (s : State) (line : Fin 2) (text : List Byte) (ws : List ByteWrite) (rest : List Byte),
    s.pinsIdle = true → s.lcdst ≠ .uninitialized → s.env.lcd.latch = none → textOk text = true →
    (∀ w ∈ ws, w.wait.ok = true) →
    ws.map ByteWrite.sent =
      (false, Config.opSetDdram ||| (if line = 0 then 0x00#8 else 0x40#8))
        :: text.map (fun c => (true, Config.charmap c)) →
    s.env.lcdParty = .oracle (answersOf ws ++ rest) →
      Completes (.writeLine line.val text) s { afterWrites ws rest s with lcdst := .ready }
        ∧ (fitsLine s.env.lcd text → s.env.lcd.settled = true → s.env.lcd.owed = false →
          lcdDescribed s.env.lcd = true → s.env.lcd.increment = true → Memory.wf s.env.lcd.ddram = true →
            ∀ a, Memory.read (afterWrites ws rest s).env.lcd.ddram a =
              if (if line = 0 then 0 else 64) ≤ a then
                (text.map Config.charmap).getD (a - if line = 0 then 0 else 64) (Memory.read s.env.lcd.ddram a)
              else Memory.read s.env.lcd.ddram a)

/-- R139: `clear` sends clear-display and then return-home, each waited for before the next. The attached LCD is what
`receiveAll` makes of the bytes (log entries 7 to 10, 24 to 26). -/
def Obligations.ClearSendsClearThenHome : Prop :=
  ∀ (s : State) (ws : List ByteWrite) (rest : List Byte),
    s.pinsIdle = true → s.lcdst ≠ .uninitialized → s.env.lcd.latch = none → (∀ w ∈ ws, w.wait.ok = true) →
    ws.map ByteWrite.sent = [(false, Config.opClearDisplay), (false, Config.opReturnHome)] →
    s.env.lcdParty = .oracle (answersOf ws ++ rest) →
      Completes .clear s { afterWrites ws rest s with lcdst := .ready }

/-- R130(a): each of the seven driver operations, with its operand in its domain, is refused where the pins are not
idle, whatever `LCDST` is; and so is `startup`, which begins with `initialize` (R202), and with the default table a
`keyEvent` of a digit code or of code 24, which begins with one of them (R201). -/
def Obligations.DriverRefusesPinsNotIdle : Prop :=
  ∀ (s : State) (b : Byte) (line : Fin 2) (text : List Byte), s.pinsIdle = false →
    (∀ i ∈ [Instr.waitReady, .writeInstruction b, .writeData b, .initializeLcd, .writeLine line.val text,
        .writeChar b, .clear, .startup],
      exec i s = .refused .pinsNotIdle)
      ∧ (s.env.dispatch = defaultDispatch →
        ∀ k ∈ [2#5, 6#5, 7#5, 8#5, 11#5, 12#5, 13#5, 16#5, 17#5, 18#5, 24#5],
          exec (.keyEvent k) s = .refused .pinsNotIdle)

/-- R130(b): the five writing operations, with idle pins, are refused while the LCD is not initialised; so is, with
the default table, a `keyEvent` of a digit code or of code 24 (R201). -/
def Obligations.DriverRefusesUninitialized : Prop :=
  ∀ (s : State) (b : Byte) (line : Fin 2) (text : List Byte), s.pinsIdle = true → s.lcdst = .uninitialized →
    (∀ i ∈ [Instr.writeInstruction b, .writeData b, .writeLine line.val text, .writeChar b, .clear],
      exec i s = .refused .lcdNotInitialized)
      ∧ (s.env.dispatch = defaultDispatch →
        ∀ k ∈ [2#5, 6#5, 7#5, 8#5, 11#5, 12#5, 13#5, 16#5, 17#5, 18#5, 24#5],
          exec (.keyEvent k) s = .refused .lcdNotInitialized)

/-- R137, R201, R227(1): a line index other than 0 or 1 and a key code above 24 are refused in every state, before the
pins and `LCDST` are looked at. -/
def Obligations.OperandsOutsideTheirDomainAreRefused : Prop :=
  (∀ (s : State) (lineIndex : Nat) (text : List Byte), 2 ≤ lineIndex →
      exec (.writeLine lineIndex text) s = .refused .badLineIndex)
    ∧ ∀ (s : State) (k : BitVec 5), 24 < k.toNat → exec (.keyEvent k) s = .refused .badKeyCode

/-- R222: while the environment answers every poll with bit 7 set, the wait goes on: after any number of such answers
the sequencer stands at the head of the poll loop again, the trace holds one `P(b)` for each, and nothing else of the
block is changed. The attached LCD's record of the bus is log entry 25's: a ready status is owed (R263, U4). -/
def Obligations.BusyAnswersKeepTheWaitPolling : Prop :=
  ∀ (s : State) (after : List Micro) (bs rest : List Byte),
    s.env.lcd.latch = none → s.seq = pollBody ++ after → bs.all busyFlag = true →
    s.rs = false → s.rw = true → s.e = false → s.ddir = .input →
    s.env.lcdParty = .oracle (bs ++ rest) →
      Reaches s
        { s with
          trace := s.trace ++ bs.flatMap pollTrace, poll := bs.getLastD s.poll,
          env :=
            { s.env with
              lcdParty := .oracle rest,
              lcd := if bs = [] then s.env.lcd else polledBusy s.env.lcdParty s.env.lcd } }

/-- spec/20_memory.md R73: with the reference LCD answering, a data write is followed by exactly `BUSY_LAT` busy polls
and one ready poll, each with the address pointer, one higher than before, in its low bits, and the operation ends. -/
def Obligations.ReferenceLcdIsBusyForItsLatency : Prop :=
  ∀ (s : State) (b : Byte),
    s.pinsIdle = true → s.lcdst = .ready → s.env.lcd.latch = none → s.env.lcdParty = .reference →
      ∃ u, Completes (.writeData b) s u ∧ u.lcdst = .ready
        ∧ u.env.lcd = { refReceive true b s.env.lcd with busyN := 0 }
        ∧ u.trace = s.trace ++ writeTrace true b
            ++ waitTrace
              (List.replicate s.env.lcd.busyLat (statusByte true (refReceive true b s.env.lcd).ac)
                ++ [statusByte false (refReceive true b s.env.lcd).ac])
        ∧ (refReceive true b s.env.lcd).ac = s.env.lcd.ac + 1#7

/-! ### The bus discipline over whole runs -/

/-- spec/41_lcd_driver.md R140(3), R140(6), spec/70_reset_and_hazards.md R260, R262: every step keeps the bus
discipline: an inter-phase delay between every two phases, that after the fall of `E` in a read cycle too, `RS` and
`RW` held through every pulse (R82), the bus never an output in read mode and an output wherever `E` rises in write
mode (R25), no byte driven and no `E` raised in write mode while a ready status is owed. The host is held to the
driver's operations (R261). -/
def Obligations.EveryStepKeepsTheBusDiscipline : Prop :=
  ∀ s t : State, Polite s → step s = .next t → Polite t

/-- The discipline holds right after reset. -/
def Obligations.ResetKeepsTheBusDiscipline : Prop := Polite State.reset

/-- R140(3): from reset, whatever program without bus primitives the host issues, whatever the LCD and the keypad
answer, and whatever the collaborator's table is, no state of the run shows a violation of the discipline. -/
def Obligations.DriverOnlyRunsNeverViolateTheBus : Prop :=
  ∀ (env : Environment) (t : State),
    env.program.all isDriverCommand = true → env.lcd.latch = none →
    Reaches { State.reset with env := env } t → (watch t.trace).ok = true

/-- Every step adds at most one event to the trace, at its end, and takes none away. That one step is one line of the
pseudocode, and so at most one event, is the model's grain (log entry 1, DEDUCED), no rule of the spec; that no event
is taken away or put in before another is spec/20_memory.md R62. -/
def Obligations.EveryStepAddsAtMostOneEvent : Prop :=
  ∀ s t : State, step s = .next t → t.trace = s.trace ∨ ∃ ev, t.trace = s.trace ++ [ev]

/-- spec/10_state.md R25: whatever the state, a sample is taken only as an input: a step that adds a `Sample` event
leaves `DDIR` at `Input`. -/
def Obligations.SamplesAreTakenAsInput : Prop :=
  ∀ (s t : State) (b : Byte), step s = .next t → t.trace = s.trace ++ [.sample b] → t.ddir = .input

/-- spec/10_state.md R27(4), R27(5): `LCDST` leaves `Uninitialized` only at the last line of `initialize`, for
`Ready`. -/
def Obligations.OnlyInitializeLeavesUninitialized : Prop :=
  ∀ s t : State, s.lcdst = .uninitialized → step s = .next t → t.lcdst ≠ .uninitialized →
    t.lcdst = .ready ∧ s.env.lcd.latch = none ∧ ∃ rest, s.seq = .markReady :: rest

/-! ### Keypad scanner (spec/42_keypad_scanner.md) -/

/-- R168, R169: the bit position of every single-bit mask and of mask 0, whatever free value is drawn, and the key
code, which is `5*row + col` and injective. -/
def Obligations.KeyCodesAreRowsTimesFivePlusColumn : Prop :=
  (∀ n : Nat, positionOfSetBit n 0#5 = 0 ∧ ∀ c : Fin 5, positionOfSetBit n (1#5 <<< c.val) = c)
    ∧ (∀ row col : Fin 5, (keyCode row col).val = 5 * row.val + col.val)
    ∧ ∀ r c r' c' : Fin 5, keyCode r c = keyCode r' c' → r = r' ∧ c = c'

/-- R161, R171, R172: the row is activated with exactly its own bit of the row word, all others clear, and deactivated
with none; the row index advances modulo 5 with no event. Nothing else is changed. -/
def Obligations.RowStepsDriveOneRow : Prop :=
  ∀ (s : State) (rest : List Micro), s.env.lcd.latch = none →
    (s.seq = .activateRow :: rest →
        step s = .next
          { s with seq := rest, rowout := onehot5 s.row, trace := s.trace ++ [.row (onehot5 s.row)] })
      ∧ (∀ r : Fin 5, (onehot5 s.row).getLsbD r.val = true ↔ r = s.row)
      ∧ (s.seq = .deactivateRow :: rest →
        step s = .next { s with seq := rest, rowout := 0b00000#5, trace := s.trace ++ [.row 0b00000#5] })
      ∧ (s.seq = .advanceRow :: rest →
        ∃ r : Fin 5, r.val = (s.row.val + 1) % 5 ∧ step s = .next { s with seq := rest, row := r })

/-- R173 corner case (a): no key in the active row: two `Row` events and one `Col(0)`, no delay; the row advances.
`MASK` and `CNT` end unspecified: nothing is said of them. -/
def Obligations.ScanOfAnEmptyRow : Prop :=
  ∀ (s : State) (raw : Byte) (rest : List Byte),
    s.env.lcd.latch = none → columnMask raw = 0#5 → s.env.keyParty = .oracle (raw :: rest) →
      ∃ (m : KeyWord) (n : BitVec 7),
        Completes .scanCycle s
          { s with
            row := nextRow s.row, rowout := 0#5, mask := m, cnt := n,
            trace := s.trace ++ [.row (onehot5 s.row), .col 0#5, .row 0#5],
            env := { s.env with keyParty := .oracle rest, draws := s.env.draws + 1 } }

/-- R165, R173 corner case (b): a signal that disappears within the window, at the latest in the 100th re-sample, is
noise: no key event and no release-confirmation loop. -/
def Obligations.ScanOfNoiseRaisesNoKey : Prop :=
  ∀ (s : State) (first : Byte) (held : List Byte) (gone : Byte) (rest : List Byte),
    s.env.lcd.latch = none → columnMask first ≠ 0#5 → (∀ w ∈ held, columnMask w ≠ 0#5) → held.length < 100 →
    columnMask gone = 0#5 → s.env.keyParty = .oracle (first :: held ++ gone :: rest) →
      ∃ (m : KeyWord) (n : BitVec 7),
        Completes .scanCycle s
          { s with
            row := nextRow s.row, rowout := 0#5, mask := m, cnt := n,
            trace := s.trace ++ [.row (onehot5 s.row), .col (columnMask first)]
              ++ (held ++ [gone]).flatMap (fun w => [.delayScan 1, .col (columnMask w)]) ++ [.row 0#5],
            env := { s.env with keyParty := .oracle rest, draws := s.env.draws + 1 } }

/-- R166, R173 corner case (c): a chord held through all 100 re-samples is discarded: no key event and no
release-confirmation loop; only the last sample is tested. -/
def Obligations.ScanOfAHeldChordRaisesNoKey : Prop :=
  ∀ (s : State) (first : Byte) (held : List Byte) (last : Byte) (rest : List Byte),
    s.env.lcd.latch = none → columnMask first ≠ 0#5 → (∀ w ∈ held, columnMask w ≠ 0#5) → held.length = 99 →
    columnMask last ≠ 0#5 → singleMask (columnMask last) = false →
    s.env.keyParty = .oracle (first :: held ++ last :: rest) →
      ∃ (m : KeyWord) (n : BitVec 7),
        Completes .scanCycle s
          { s with
            row := nextRow s.row, rowout := 0#5, mask := m, cnt := n,
            trace := s.trace ++ [.row (onehot5 s.row), .col (columnMask first)]
              ++ (held ++ [last]).flatMap (fun w => [.delayScan 1, .col (columnMask w)]) ++ [.row 0#5],
            env := { s.env with keyParty := .oracle rest, draws := s.env.draws + 1 } }

/-- R165 to R169, R174(2), R174(3): samples non-zero through all 100 re-samples, the last with the single column `col`
set, give exactly the key event `5*row + col`; the sequencer then stands at the collaborator's program for that code,
followed by the release-confirmation loop, with the row still active. From there the whole cycle completes, where the
table's program is any list of writing calls, the pins idle and the LCD initialised if there is one: each call writes
its bytes and waits (R167), the release-confirmation loop ends after 100 consecutive zero samples (R170), the row is
deactivated and the scanner advances (R171, R172). The attached LCD is what `receiveAll` makes of the bytes (log entries
7 to 10, 24 to 26). -/
def Obligations.ScanOfAHeldKeyDispatchesItsCode : Prop :=
  ∀ (s : State) (first : Byte) (held : List Byte) (last : Byte) (rest : List Byte) (col : Fin 5),
    s.env.lcd.latch = none → columnMask first ≠ 0#5 → (∀ w ∈ held, columnMask w ≠ 0#5) → held.length = 99 →
    columnMask last = 1#5 <<< col.val → s.env.keyParty = .oracle (first :: held ++ last :: rest) →
      PassesThrough .scanCycle s
        { s with
          rowout := onehot5 s.row, mask := 1#5 <<< col.val, cnt := 100#7,
          seq := (dispatchProgram s.env.dispatch (5 * s.row.val + col.val)).map .call
            ++ [.clearCount, .releaseLoop, .deactivateRow, .advanceRow, .scanDone] ++ s.seq,
          trace := s.trace ++ [.row (onehot5 s.row), .col (columnMask first)]
            ++ (held ++ [last]).flatMap (fun w => [.delayScan 1, .col (columnMask w)])
            ++ [.key (keyCode s.row col)],
          env := { s.env with keyParty := .oracle rest } }
        ∧ ∀ (ws : List ByteWrite) (lcdRest before zeros keyRest : List Byte),
          (∀ c ∈ dispatchProgram s.env.dispatch (5 * s.row.val + col.val), isWriteCall c = true) →
          (dispatchProgram s.env.dispatch (5 * s.row.val + col.val) ≠ [] →
            s.pinsIdle = true ∧ s.lcdst ≠ .uninitialized) →
          ws.map ByteWrite.sent = (dispatchProgram s.env.dispatch (5 * s.row.val + col.val)).flatMap sends →
          (∀ w ∈ ws, w.wait.ok = true) → s.env.lcdParty = .oracle (answersOf ws ++ lcdRest) →
          rest = before ++ zeros ++ keyRest →
          (∀ n ≤ before.length, quietCount ((before.take n).map columnMask) 0 < 100) →
          quietCount (before.map columnMask) 0 = 0 → zeros.length = 100 → (∀ w ∈ zeros, columnMask w = 0#5) →
            ∃ (m : KeyWord) (n : BitVec 7),
              Completes .scanCycle s
                { s with
                  lcdst := if ws = [] then s.lcdst else .ready, poll := lastPoll s.poll ws,
                  row := nextRow s.row, rowout := 0#5, mask := m, cnt := n,
                  trace := s.trace ++ [.row (onehot5 s.row), .col (columnMask first)]
                    ++ (held ++ [last]).flatMap (fun w => [.delayScan 1, .col (columnMask w)])
                    ++ [.key (keyCode s.row col)] ++ traceOf ws
                    ++ (before ++ zeros).flatMap (fun w => [.delayScan 1, .col (columnMask w)]) ++ [.row 0#5],
                  env :=
                    { s.env with
                      lcdParty := .oracle lcdRest, keyParty := .oracle keyRest,
                      lcd := receiveAll s.env.lcdParty ws s.env.lcd, draws := s.env.draws + 1 } }

/-- R170 to R172, R174(4): the release-confirmation loop goes on while no 100 consecutive samples are zero, any
non-zero sample starting the count again, and ends after 100 consecutive zeros; the row is then deactivated and the
scanner advances. -/
def Obligations.ReleaseLoopEndsAfterHundredQuietSamples : Prop :=
  ∀ (s : State) (before zeros : List Byte) (rest : List Byte) (after : List Micro),
    s.env.lcd.latch = none →
    s.seq = [.clearCount, .releaseLoop, .deactivateRow, .advanceRow, .scanDone] ++ after →
    (∀ n ≤ before.length, quietCount ((before.take n).map columnMask) 0 < 100) →
    quietCount (before.map columnMask) 0 = 0 → zeros.length = 100 → (∀ w ∈ zeros, columnMask w = 0#5) →
    s.env.keyParty = .oracle (before ++ zeros ++ rest) →
      ∃ (m : KeyWord) (n : BitVec 7),
        Reaches s
          { s with
            row := nextRow s.row, rowout := 0#5, mask := m, cnt := n, seq := after,
            trace := s.trace
              ++ (before ++ zeros).flatMap (fun w => [.delayScan 1, .col (columnMask w)]) ++ [.row 0#5],
            env := { s.env with keyParty := .oracle rest, draws := s.env.draws + 1 } }

/-- R223: while the row's columns never stay zero for 100 consecutive samples the loop goes on: after any such samples
the sequencer stands at the head of the loop again, the row still active, and only the trace, the count and the
answers left are changed. -/
def Obligations.HeldKeyKeepsTheReleaseLoopGoing : Prop :=
  ∀ (s : State) (samples rest : List Byte) (after : List Micro),
    s.env.lcd.latch = none → s.seq = .releaseLoop :: after → s.cnt = 0#7 →
    (∀ n ≤ samples.length, quietCount ((samples.take n).map columnMask) 0 < 100) →
    s.env.keyParty = .oracle (samples ++ rest) →
      Reaches s
        { s with
          cnt := BitVec.ofNat 7 (quietCount (samples.map columnMask) 0),
          trace := s.trace ++ samples.flatMap (fun w => [.delayScan 1, .col (columnMask w)]),
          env := { s.env with keyParty := .oracle rest } }

/-- R37, R166, R174(2): whatever the state, a step adds a key event only where `MASK` has exactly the bit set that the
event names, in the row that is current. -/
def Obligations.KeyEventsComeFromSingleBitMasks : Prop :=
  ∀ (s t : State) (k : Fin 25), step s = .next t → t.trace = s.trace ++ [.key k] →
    s.mask = 1#5 <<< (k.val % 5) ∧ s.row.val = k.val / 5 ∧ t.row = s.row ∧ t.rowout = s.rowout

/-- spec/10_state.md R29: every step keeps the row word at none or exactly one row. -/
def Obligations.EveryStepKeepsTheRowWordLegal : Prop :=
  ∀ s t : State, legalRowWord s.rowout = true → step s = .next t → legalRowWord t.rowout = true

/-- spec/10_state.md R28: `ROW` is written only by `advanceRow`, to the next row modulo 5. -/
def Obligations.OnlyAdvanceRowMovesTheRow : Prop :=
  ∀ s t : State, step s = .next t → t.row ≠ s.row →
    t.row = nextRow s.row ∧ s.env.lcd.latch = none ∧ ∃ rest, s.seq = .advanceRow :: rest

/-- R174(7): five cycles started in row 0 with no key pressed activate the rows 0 to 4 in that order, each exactly
once, and end in row 0. -/
def Obligations.FiveEmptyCyclesVisitEveryRow : Prop :=
  ∀ (s : State) (raws : List Byte) (rest : List Byte),
    s.env.lcd.latch = none → s.row = 0 → s.seq = [] → raws.length = 5 → (∀ w ∈ raws, columnMask w = 0#5) →
    s.env.keyParty = .oracle (raws ++ rest) → s.env.program = List.replicate 5 ⟨0xC00#12, []⟩ →
      ∃ u, Reaches s u ∧ u.row = 0 ∧ u.seq = [] ∧ u.env.program = []
        ∧ u.trace = s.trace
            ++ [.row 0b00001#5, .col 0#5, .row 0#5, .row 0b00010#5, .col 0#5, .row 0#5,
                .row 0b00100#5, .col 0#5, .row 0#5, .row 0b01000#5, .col 0#5, .row 0#5,
                .row 0b10000#5, .col 0#5, .row 0#5]

/-- spec/20_memory.md R74: the reference keypad answers a column sample with the OR over the active rows of its
current matrix, the last one repeating past the end of the script, the three upper bits set, and moves to the next;
the sample the block keeps is the five lower bits. -/
def Obligations.ReferenceKeypadAnswersItsMatrix : Prop :=
  ∀ (s : State) (m : KeyMatrix) (c : Fin 5),
    s.env.keyParty = .reference →
    s.env.keypad.script[min s.env.keypad.cursor (s.env.keypad.script.length - 1)]? = some m →
      ((sampleColumns s).1.getLsbD c.val = true ↔
          ∃ r : Fin 5, s.rowout.getLsbD r.val = true ∧ m.getLsbD (5 * r.val + c.val) = true)
        ∧ (keyAnswer s).1.extractLsb' 5 3 = 7#3
        ∧ (sampleColumns s).2.env.keypad.cursor = s.env.keypad.cursor + 1
        ∧ (sampleColumns s).2.env.keypad.script = s.env.keypad.script

/-! ### Collaborator and glue (spec/43_dispatch_and_glue.md) -/

/-- R201: with the default table the fourteen unlisted codes are done at once and change nothing, whatever `LCDST` and
the pins are. -/
def Obligations.UnlistedKeyEventsDoNothing : Prop :=
  ∀ (s : State), s.env.dispatch = defaultDispatch →
    ∀ k ∈ [0#5, 1#5, 3#5, 4#5, 5#5, 9#5, 10#5, 14#5, 15#5, 19#5, 20#5, 21#5, 22#5, 23#5],
      exec (.keyEvent k) s = .next s

/-- R201: with the default table the ten digit codes write their digit's character. The attached LCD is what `receiveAll`
makes of the byte (log entries 7 to 10, 24 to 26). -/
def Obligations.DigitKeyEventsWriteTheirDigit : Prop :=
  ∀ (s : State) (w : Wait) (rest : List Byte),
    s.env.dispatch = defaultDispatch → s.pinsIdle = true → s.lcdst ≠ .uninitialized → s.env.lcd.latch = none →
    w.ok = true → s.env.lcdParty = .oracle (w.answers ++ rest) →
      ∀ p ∈ [(2#5, 0x30#8), (6#5, 0x31#8), (7#5, 0x32#8), (8#5, 0x33#8), (11#5, 0x34#8), (12#5, 0x35#8),
          (13#5, 0x36#8), (16#5, 0x37#8), (17#5, 0x38#8), (18#5, 0x39#8)],
        Completes (.keyEvent p.1) s
          { afterWrites [⟨true, Config.charmap p.2, w⟩] rest s with lcdst := .ready }

/-- R201: with the default table code 24 clears: clear-display, then return-home. The attached LCD is what `receiveAll`
makes of the bytes (log entries 7 to 10, 24 to 26). -/
def Obligations.KeyEvent24Clears : Prop :=
  ∀ (s : State) (ws : List ByteWrite) (rest : List Byte),
    s.env.dispatch = defaultDispatch → s.pinsIdle = true → s.lcdst ≠ .uninitialized → s.env.lcd.latch = none →
    (∀ w ∈ ws, w.wait.ok = true) →
    ws.map ByteWrite.sent = [(false, Config.opClearDisplay), (false, Config.opReturnHome)] →
    s.env.lcdParty = .oracle (answersOf ws ++ rest) →
      Completes (.keyEvent 24#5) s { afterWrites ws rest s with lcdst := .ready }

/-- R167, R224: a call of a writing operation by the collaborator inside a scan cycle: the LCD not initialised, it
stops the run there with that refusal (spec/95_test_vectors.md X7); the LCD initialised, it runs its writes and their
waits and the lines after it stand next (K6, K10). So do the two calls that need no initialised LCD, `waitReady` and
`initialize`. The attached LCD is what `receiveAll` makes of the bytes (log entries 7 to 10, 24 to 26). -/
def Obligations.CollaboratorNeedsAnInitialisedLcd : Prop :=
  ∀ (s : State) (c : LcdCall) (after : List Micro),
    s.env.lcd.latch = none → s.seq = .call c :: after → s.pinsIdle = true →
      (badOperand c = false → needsInit c = true → s.lcdst = .uninitialized →
        step s = .refused .lcdNotInitialized)
        ∧ (∀ (ws : List ByteWrite) (rest : List Byte),
          isWriteCall c = true → s.lcdst ≠ .uninitialized → ws.map ByteWrite.sent = sends c →
          (∀ w ∈ ws, w.wait.ok = true) → s.env.lcdParty = .oracle (answersOf ws ++ rest) →
            Reaches s { afterWrites ws rest s with lcdst := .ready, seq := after })
        ∧ (∀ (w : Wait) (rest : List Byte),
          c = .waitReady → w.ok = true → s.env.lcdParty = .oracle (w.answers ++ rest) →
            Reaches s
              { afterWait w rest s with lcdst := if s.lcdst = .busy then .ready else s.lcdst, seq := after })
        ∧ ∀ (lead : Wait) (ws : List ByteWrite) (rest : List Byte),
          c = .initializeLcd → lead.ok = true → ws.map ByteWrite.sent = sends c →
          (∀ w ∈ ws, w.wait.ok = true) → s.env.lcdParty = .oracle (lead.answers ++ answersOf ws ++ rest) →
            Reaches s
              { afterWrites ws rest (afterWait lead (answersOf ws ++ rest) s) with lcdst := .ready, seq := after }

/-- R202, R203: `startup` runs `initialize`, writes the banner's lines, waits 2000 units of the scanner, clears, and
enters the scan loop: it reaches the first line of a scan cycle that the scan loop follows, with the display's bytes
those of the sequence. It never ends: the scan loop stands in `SEQ`. The banner is whatever the configuration gives,
one `writeLine` where it is the default (R202; log entry 15). The attached LCD is what `receiveAll` makes of the bytes
(log entries 7 to 10, 24 to 26). -/
def Obligations.StartupReachesTheScanLoop : Prop :=
  ∀ (s : State) (lead : Wait) (inits banner clears : List ByteWrite) (rest : List Byte),
    s.pinsIdle = true → s.env.lcd.latch = none → lead.ok = true →
    (∀ w ∈ inits ++ banner ++ clears, w.wait.ok = true) →
    inits.map ByteWrite.sent =
      [(false, Config.opFunctionSet), (false, Config.opDisplayControl), (false, Config.opClearDisplay),
        (false, Config.opEntryMode), (false, Config.opReturnHome)] →
    (∀ p ∈ s.env.banner.getD Config.banner, textOk p.2 = true) →
    banner.map ByteWrite.sent =
      (s.env.banner.getD Config.banner).flatMap
        (fun p => (false, Config.opSetDdram ||| (if p.1 = 0 then 0x00#8 else 0x40#8))
          :: p.2.map (fun c => (true, Config.charmap c))) →
    clears.map ByteWrite.sent = [(false, Config.opClearDisplay), (false, Config.opReturnHome)] →
    s.env.lcdParty = .oracle (lead.answers ++ answersOf (inits ++ banner ++ clears) ++ rest) →
      PassesThrough .startup s
        { s with
          lcdst := .ready, poll := lastPoll lead.ready (inits ++ banner ++ clears),
          seq := scanLines ++ [.mainLoop] ++ s.seq,
          trace := s.trace ++ waitTrace lead.answers ++ traceOf (inits ++ banner) ++ [.delayScan 2000]
            ++ traceOf clears,
          env :=
            { s.env with
              lcdParty := .oracle rest,
              lcd := receiveAll s.env.lcdParty (inits ++ banner ++ clears) (rested s.env.lcdParty s.env.lcd) } }

/-- R203: the scan loop: with no key pressed, one more cycle of the loop, and the loop stands again; and from every
state no step takes the loop out of `SEQ`, so that `startup` never ends (R202). -/
def Obligations.ScanLoopRunsOneMoreCycle : Prop :=
  (∀ (s : State) (raw : Byte) (rest : List Byte) (after : List Micro),
    s.env.lcd.latch = none → s.seq = .mainLoop :: after → columnMask raw = 0#5 →
    s.env.keyParty = .oracle (raw :: rest) →
      ∃ (m : KeyWord) (n : BitVec 7),
        Reaches s
          { s with
            row := nextRow s.row, rowout := 0#5, mask := m, cnt := n,
            trace := s.trace ++ [.row (onehot5 s.row), .col 0#5, .row 0#5],
            env := { s.env with keyParty := .oracle rest, draws := s.env.draws + 1 } })
    ∧ ∀ s t : State, .mainLoop ∈ s.seq → step s = .next t → .mainLoop ∈ t.seq

/-- R98(1): a reserved command word is refused in every state. -/
def Obligations.ReservedCommandsAreRefused : Prop :=
  ∀ (w : BitVec 12) (s : State), exec (.reserved w) s = .refused .reservedCommand

/-! ### The bytes of the LCD bus -/

/-- Every byte given to the attached LCD, in either of its two registers, acts by its value, and nothing outside the
device is changed: on the reference LCD as spec/20_memory.md R71 and R72 say; on any other as spec/30_encoding.md R84
to R91 say, with free values from the first byte of R99 or breach of the bus discipline on, where a function-set was
not the first byte (R264, U12), and past the character positions of a line. The first clause is about the instruction a
byte decodes to, the second about a step that runs the byte taken, an instruction byte outside the table too (R71:
logged, no pointer or cell changed; R99). That another LCD is told from RefLCD, its settings as registers, the direction
of its pointer, and what clear-display and return-home do to it are the model's (log entries 7, 8, 9, 10, 24, 25 and
26). -/
def Obligations.WrittenBytesActOnTheLcd : Prop :=
  ∀ (s : State) (rs : Bool) (b : Byte),
    (∀ i : Instr, decodePins (pinWord rs false true b) = .ok i →
      exec i s = .next { s with env := { s.env with lcd := receive s.env.lcdParty rs b s.env.lcd } })
      ∧ (s.env.lcd.latch = some (pinWord rs false true b) →
        step s = .next
          { s with
            env := { s.env with lcd := receive s.env.lcdParty rs b { s.env.lcd with latch := none } } })

/-- R71: clear-display makes every cell of the reference LCD blank and the address pointer 0. That it does so to any
other LCD the spec describes is log entry 7 (PRESUMED), and that it leaves the settings, among them the entry mode, as
they are is the model's choice (log entries 8 and 24): spec/91_not_in_source.md N4 lists it as not to be assumed. -/
def Obligations.ClearDisplayBlanksEveryCell : Prop :=
  ∀ s : State, s.env.lcdParty = .reference ∨ lcdDescribed s.env.lcd = true → ∃ t, exec .clearDisplay s = .next t
    ∧ (∀ a, Memory.read t.env.lcd.ddram a = 0x20#8)
    ∧ t = { s with
        env :=
          { s.env with
            lcd :=
              { s.env.lcd with
                ac := 0#7, ddram := t.env.lcd.ddram, busyN := s.env.lcd.busyLat,
                log := s.env.lcd.log ++ [(false, Config.opClearDisplay)] } } }

/-- R71, R85, R89: return-home and set-address move the address pointer; every cell and every setting is unchanged. Of
an LCD other than the reference LCD R89 gives set-address; return-home is log entry 7's (PRESUMED). -/
def Obligations.AddressInstructionsMoveThePointer : Prop :=
  ∀ (s : State) (x : Bool) (a : BitVec 7), s.env.lcdParty = .reference ∨ lcdDescribed s.env.lcd = true →
    exec (.returnHome x) s = .next
        { s with
          env :=
            { s.env with
              lcd :=
                { s.env.lcd with
                  ac := 0#7, busyN := s.env.lcd.busyLat,
                  log := s.env.lcd.log ++ [(false, if x then 0x03#8 else 0x02#8)] } } }
      ∧ exec (.setDdramAddr a) s = .next
        { s with
          env :=
            { s.env with
              lcd :=
                { s.env.lcd with
                  ac := a, busyN := s.env.lcd.busyLat,
                  log := s.env.lcd.log ++ [(false, 0x80#8 ||| a.setWidth 8)] } } }

/-- R86 to R88: the three mode instructions write their settings in an LCD the spec describes, function-set with the
document's settings, and as its first byte too (R264); the address pointer and every cell are unchanged. That the settings are held in named registers
is the model's choice (log entry 8). The reference LCD only logs them (R71). Of another LCD after a function-set with
other settings nothing is said but that it has the byte (R99). -/
def Obligations.ModeInstructionsWriteTheirSettings : Prop :=
  ∀ (s : State) (p q r : Bool) (x : BitVec 2) (entry display function : Byte) (taken : Byte → LcdDevice),
    entry = 0x04#8 ||| (if p then 2#8 else 0#8) ||| (if q then 1#8 else 0#8) →
    display = 0x08#8 ||| (if p then 4#8 else 0#8) ||| (if q then 2#8 else 0#8) ||| (if r then 1#8 else 0#8) →
    function = 0x20#8 ||| (if p then 16#8 else 0#8) ||| (if q then 8#8 else 0#8) ||| (if r then 4#8 else 0#8)
      ||| x.setWidth 8 →
    (∀ b, taken b = { s.env.lcd with busyN := s.env.lcd.busyLat, log := s.env.lcd.log ++ [(false, b)] }) →
      (s.env.lcdParty = .reference →
        exec (.entryModeSet p q) s = .next { s with env := { s.env with lcd := taken entry } }
          ∧ exec (.displayControl p q r) s = .next { s with env := { s.env with lcd := taken display } }
          ∧ exec (.functionSet p q r x) s = .next { s with env := { s.env with lcd := taken function } })
        ∧ (s.env.lcdParty ≠ .reference → lcdDescribed s.env.lcd = true →
          exec (.entryModeSet p q) s =
              .next { s with env := { s.env with lcd := { taken entry with increment := p, shift := q } } }
            ∧ exec (.displayControl p q r) s =
              .next { s with
                env := { s.env with lcd := { taken display with displayOn := p, cursorOn := q, blinkOn := r } } })
        ∧ (s.env.lcdParty ≠ .reference →
          lcdDescribed s.env.lcd = true ∨ s.env.lcd.slips = 0 ∧ s.env.lcd.log = [] →
          p = true ∧ q = true ∧ r = true →
            exec (.functionSet p q r x) s =
              .next { s with
                env := { s.env with lcd := { taken function with eightBit := p, twoLines := q, largeFont := r } } })
        ∧ ∃ d : LcdDevice, exec (.functionSet p q r x) s = .next { s with env := { s.env with lcd := d } }
          ∧ d.log = (taken function).log ∧ d.busyN = (taken function).busyN ∧ d.latch = s.env.lcd.latch

/-- R72, R91, R52: a data byte is stored at the address pointer, every other cell unchanged, and the pointer moves by
one: on the reference LCD always up, modulo 128 (R72); on another LCD the spec describes, within the character
positions of a line, to the next position, or to the one before where the entry mode does not increment (R86; log
entry 9). Nothing is said of its pointer past an end of the line, nor of its pointer and cells after a byte past the
`LCD_COLS` positions (U1, N9). -/
def Obligations.DataByteIsStoredAtThePointer : Prop :=
  ∀ (s : State) (d : Byte), Memory.wf s.env.lcd.ddram = true →
    ∃ t, exec (.data d) s = .next t
      ∧ (s.env.lcdParty = .reference ∨
          lcdDescribed s.env.lcd = true ∧ s.env.lcd.ac.toNat % 64 < s.env.lcd.cols.getD Config.lcdCols →
        ∀ a, Memory.read t.env.lcd.ddram a =
          if a = s.env.lcd.ac.toNat then d else Memory.read s.env.lcd.ddram a)
      ∧ (s.env.lcdParty = .reference → t.env.lcd.ac.toNat = (s.env.lcd.ac.toNat + 1) % 128)
      ∧ (s.env.lcdParty ≠ .reference → lcdDescribed s.env.lcd = true → s.env.lcd.increment = true →
          s.env.lcd.ac.toNat % 64 + 1 < min 64 (s.env.lcd.cols.getD Config.lcdCols) →
          t.env.lcd.ac.toNat = s.env.lcd.ac.toNat + 1)
      ∧ (s.env.lcdParty ≠ .reference → lcdDescribed s.env.lcd = true → s.env.lcd.increment = false →
          0 < s.env.lcd.ac.toNat % 64 → s.env.lcd.ac.toNat % 64 < s.env.lcd.cols.getD Config.lcdCols →
          t.env.lcd.ac.toNat + 1 = s.env.lcd.ac.toNat)
      ∧ (s.env.lcdParty = .reference ∨ lcdDescribed s.env.lcd = true →
        t = { s with
          env :=
            { s.env with
              lcd :=
                { s.env.lcd with
                  ac := t.env.lcd.ac, ddram := t.env.lcd.ddram, busyN := s.env.lcd.busyLat,
                  log := s.env.lcd.log ++ [(true, d)] } } })

/-- R90, R132: a status byte is sampled as an input into the poll loop's variable; nothing else but the trace is
changed, and the attached LCD's view of the bus (log entry 25); only its bit 7 decides whether the loop goes on. -/
def Obligations.StatusByteIsSampled : Prop :=
  ∀ (s : State) (b : Bool) (a : BitVec 7),
    (∃ d, Hears s (.sample (statusByte b a)) d ∧ exec (.status b a) s = .next
        { s with
          ddir := .input, poll := statusByte b a, trace := s.trace ++ [.sample (statusByte b a)],
          env := { s.env with lcd := d } })
      ∧ (busyFlag (statusByte b a) = b)
      ∧ pollUntil { s with poll := statusByte b a } =
          { s with poll := statusByte b a, seq := if b then pollBody ++ s.seq else s.seq }

/-- spec/00_scope.md R9: the attached LCD's turn, when it has taken a byte written to it, changes the device alone: no
field of the block, no event, nothing else of the environment. -/
def Obligations.DeviceTurnLeavesTheBlockAlone : Prop :=
  ∀ (s t : State) (w : PinWord), s.env.lcd.latch = some w → latchIsWrite s = true → step s = .next t →
    ∃ d, t = { s with env := { s.env with lcd := d } } ∧ d.latch = none

/-- Every step keeps the display RAM in its canonical form, from every state. That the map of spec/20_memory.md R70 is
a list, and the form of that list, are the model's choice (log entry 22), no rule of the spec. -/
def Obligations.EveryStepKeepsTheDisplayRamCanonical : Prop :=
  ∀ s t : State, Memory.wf s.env.lcd.ddram = true → step s = .next t → Memory.wf t.env.lcd.ddram = true

/-- Every cell of the display RAM right after reset reads blank, 0x20: R70's value for the reference LCD. That it
holds of the LCD attached at reset, which is another one, and that the list that holds the cells is canonical, are the
model's choice (log entry 22), no rule of the spec: R250 and N4 leave a device's contents at power-on to it. -/
def Obligations.ResetDisplayRamIsBlank : Prop :=
  Memory.wf State.reset.env.lcd.ddram = true ∧ ∀ a, Memory.read State.reset.env.lcd.ddram a = 0x20#8

/-! ### Durations (spec/70_reset_and_hazards.md R271) -/

/-- R271: the delays of the operations that touch the LCD, over the events the completed operation adds, `k` being the
polls of a wait: `waitReady` 1 + 2k units of the bus, `writeInstruction`, `writeData` and `writeChar` 4 + 2k,
`writeLine` and `clear` so many for each byte they write, `initialize` with one poll per wait 33; none of them holds a
scanner delay. A scan cycle with no key down holds no delay; one that rejects after the full window holds 100 units of
the scanner and none of the bus; one that accepts holds at least 200, and those of the bus are the ones of its
collaborator's writes. R271 lists no `writeChar`, `writeLine` and `clear`: theirs are of R137 to R139. -/
def Obligations.LeastDelaysOfTheDriver : Prop :=
  ∀ s : State, s.env.lcd.latch = none →
    (∀ (w : Wait) (rest : List Byte), s.pinsIdle = true → w.ok = true →
      s.env.lcdParty = .oracle (w.answers ++ rest) →
      (∃ u, Completes .waitReady s u ∧ Delays s u (1 + 2 * (w.busy.length + 1)) 0)
        ∧ (s.lcdst ≠ .uninitialized → ∀ b : Byte, ∀ i ∈ [Instr.writeInstruction b, .writeData b, .writeChar b],
          ∃ u, Completes i s u ∧ Delays s u (4 + 2 * (w.busy.length + 1)) 0))
      ∧ (∀ (ws : List ByteWrite) (rest : List Byte) (line : Fin 2) (text : List Byte),
        s.pinsIdle = true → s.lcdst ≠ .uninitialized → textOk text = true → (∀ w ∈ ws, w.wait.ok = true) →
        s.env.lcdParty = .oracle (answersOf ws ++ rest) →
        ∀ p ∈ [(LcdCall.clear, Instr.clear), (.writeLine line.val text, .writeLine line.val text)],
          ws.map ByteWrite.sent = sends p.1 →
            ∃ u, Completes p.2 s u
              ∧ Delays s u ((ws.map (fun w => 4 + 2 * (w.wait.busy.length + 1))).sum) 0)
      ∧ (∀ answers rest : List Byte, s.pinsIdle = true → answers.length = 6 →
        (∀ b ∈ answers, busyFlag b = false) → s.env.lcdParty = .oracle (answers ++ rest) →
        ∃ u, Completes .initializeLcd s u ∧ Delays s u 33 0)
      ∧ (∀ (raw : Byte) (rest : List Byte), columnMask raw = 0#5 → s.env.keyParty = .oracle (raw :: rest) →
        ∃ u, Completes .scanCycle s u ∧ Delays s u 0 0)
      ∧ ∀ (first : Byte) (held : List Byte) (last : Byte) (rest : List Byte),
        columnMask first ≠ 0#5 → (∀ w ∈ held, columnMask w ≠ 0#5) → held.length = 99 →
        s.env.keyParty = .oracle (first :: held ++ last :: rest) →
          (singleMask (columnMask last) = false → ∃ u, Completes .scanCycle s u ∧ Delays s u 0 100)
            ∧ ∀ (col : Fin 5) (ws : List ByteWrite) (lcdRest before zeros more : List Byte),
              columnMask last = 1#5 <<< col.val → rest = before ++ zeros ++ more →
              (∀ c ∈ dispatchProgram s.env.dispatch (5 * s.row.val + col.val), isWriteCall c = true) →
              (dispatchProgram s.env.dispatch (5 * s.row.val + col.val) ≠ [] →
                s.pinsIdle = true ∧ s.lcdst ≠ .uninitialized) →
              ws.map ByteWrite.sent = (dispatchProgram s.env.dispatch (5 * s.row.val + col.val)).flatMap sends →
              (∀ w ∈ ws, w.wait.ok = true) → s.env.lcdParty = .oracle (answersOf ws ++ lcdRest) →
              (∀ n ≤ before.length, quietCount ((before.take n).map columnMask) 0 < 100) →
              quietCount (before.map columnMask) 0 = 0 → zeros.length = 100 →
              (∀ w ∈ zeros, columnMask w = 0#5) →
                ∃ (u : State) (n : Nat), Completes .scanCycle s u ∧ Delays s u (busUnits (traceOf ws)) n ∧ 200 ≤ n
end

