-- ==== Sys2Proof/Laws/Memory.lean ====
section
/-! SUPPORT. The display RAM: a read after a write, and the canonical form kept by every memory operation. -/

namespace Sys2Proof.Machine

@[simp] theorem Memory.read_nil (a : Nat) : Memory.read [] a = Config.blankCell := rfl

theorem Memory.read_cons (k : Nat) (v : Byte) (m : Memory) (a : Nat) :
    Memory.read ((k, v) :: m) a = if k = a then v else Memory.read m a := rfl

/-- Nothing is listed below the bound of a canonical memory. -/
theorem Memory.read_below {m : Memory} {lo a : Nat} (h : Memory.wfFrom lo m = true) (ha : a < lo) :
    Memory.read m a = Config.blankCell := by
  induction m generalizing lo with
  | nil => rfl
  | cons c m ih =>
    obtain ⟨k, v⟩ := c
    simp only [Memory.wfFrom, Bool.and_eq_true, decide_eq_true_eq, bne_iff_ne, ne_eq] at h
    rw [Memory.read_cons, if_neg (by omega), ih h.2 (by omega)]

theorem Memory.wfFrom_mono {m : Memory} {lo hi : Nat} (h : Memory.wfFrom hi m = true) (hle : lo ≤ hi) :
    Memory.wfFrom lo m = true := by
  cases m with
  | nil => rfl
  | cons c m =>
    obtain ⟨k, v⟩ := c
    simp only [Memory.wfFrom, Bool.and_eq_true, decide_eq_true_eq, bne_iff_ne, ne_eq] at h ⊢
    exact ⟨⟨⟨by omega, h.1.1.2⟩, h.1.2⟩, h.2⟩

theorem Memory.putCell_wfFrom {m : Memory} {lo a : Nat} (b : Byte) (h : Memory.wfFrom (a + 1) m = true)
    (hlo : lo ≤ a) (ha : a < 128) : Memory.wfFrom lo (Memory.putCell a b m) = true := by
  unfold Memory.putCell
  split
  · exact Memory.wfFrom_mono h (by omega)
  · rename_i hb
    simp [Memory.wfFrom, hlo, ha, hb, h]

/-- A write inside the address space keeps the canonical form. -/
theorem Memory.write_wfFrom {m : Memory} {lo a : Nat} (b : Byte) (h : Memory.wfFrom lo m = true) (hlo : lo ≤ a)
    (ha : a < 128) : Memory.wfFrom lo (Memory.write m a b) = true := by
  induction m generalizing lo with
  | nil => exact Memory.putCell_wfFrom b rfl hlo ha
  | cons c m ih =>
    obtain ⟨k, v⟩ := c
    simp only [Memory.wfFrom, Bool.and_eq_true, decide_eq_true_eq, bne_iff_ne, ne_eq] at h
    unfold Memory.write
    split
    · refine Memory.putCell_wfFrom b ?_ hlo ha
      simp [Memory.wfFrom, h]
      omega
    · split
      · subst_vars
        exact Memory.putCell_wfFrom b h.2 hlo ha
      · have := ih h.2 (by omega)
        simp [Memory.wfFrom, h, this]

/-- `write` keeps the canonical form. -/
theorem Memory.write_wf {m : Memory} {a : Nat} (b : Byte) (h : Memory.wf m = true) (ha : a < 128) :
    Memory.wf (Memory.write m a b) = true :=
  Memory.write_wfFrom b h (Nat.zero_le a) ha

theorem Memory.read_putCell (a : Nat) (b : Byte) (m : Memory) (x : Nat)
    (h : Memory.read m a = Config.blankCell ∨ b ≠ Config.blankCell) :
    Memory.read (Memory.putCell a b m) x = if x = a then b else Memory.read m x := by
  unfold Memory.putCell
  split
  · split
    · subst_vars; simpa using h
    · rfl
  · rw [Memory.read_cons]
    simp only [eq_comm]

/-- A read after a write: the byte written at its address, every other address as before. -/
theorem Memory.read_write {m : Memory} {lo : Nat} (h : Memory.wfFrom lo m = true) (a : Nat) (b : Byte) (x : Nat) :
    Memory.read (Memory.write m a b) x = if x = a then b else Memory.read m x := by
  induction m generalizing lo with
  | nil => exact Memory.read_putCell a b [] x (.inl rfl)
  | cons c m ih =>
    obtain ⟨k, v⟩ := c
    have hw := h
    simp only [Memory.wfFrom, Bool.and_eq_true, decide_eq_true_eq, bne_iff_ne, ne_eq] at h
    unfold Memory.write
    split
    · refine Memory.read_putCell a b _ x (.inl ?_)
      rw [Memory.read_cons, if_neg (by omega), Memory.read_below h.2 (by omega)]
    · split
      · subst_vars
        rw [Memory.read_putCell _ b m x (.inl (Memory.read_below h.2 (by omega))), Memory.read_cons]
        by_cases hx : x = k
        · simp [hx]
        · rw [if_neg (fun e : k = x => hx e.symm), if_neg hx]
      · rw [Memory.read_cons, Memory.read_cons, ih h.2]
        split <;> split <;> first | rfl | omega

@[simp] theorem Memory.wf_nil : Memory.wf [] = true := rfl

/-- Cells put in front in falling order of their addresses are in canonical form. -/
theorem Memory.foldr_putCell_wfFrom (f : Nat → Byte) (n lo : Nat) (h : lo + n ≤ 128) :
    Memory.wfFrom lo ((List.range' lo n).foldr (fun a m => Memory.putCell a (f a) m) []) = true := by
  induction n generalizing lo with
  | zero => rfl
  | succ n ih => exact Memory.putCell_wfFrom (f lo) (ih (lo + 1) (by omega)) (Nat.le_refl lo) (by omega)

/-- `ofCells` is in canonical form. -/
theorem Memory.ofCells_wf (f : Nat → Byte) : Memory.wf (Memory.ofCells f) = true := by
  unfold Memory.wf Memory.ofCells
  rw [List.range_eq_range']
  exact Memory.foldr_putCell_wfFrom f 128 0 (by omega)

/-- No cell below the first one put is listed, and every other one put reads as given. -/
theorem Memory.read_foldr_putCell (f : Nat → Byte) (n lo a : Nat) (h : lo + n ≤ 128) (hlo : lo ≤ a)
    (hn : a < lo + n) :
    Memory.read ((List.range' lo n).foldr (fun a m => Memory.putCell a (f a) m) []) a = f a := by
  induction n generalizing lo with
  | zero => omega
  | succ n ih =>
    have hw := Memory.foldr_putCell_wfFrom f n (lo + 1) (by omega)
    show Memory.read (Memory.putCell lo (f lo) _) a = f a
    rw [Memory.read_putCell _ _ _ _ (.inl (Memory.read_below hw (by omega)))]
    split
    · subst_vars; rfl
    · exact ih (lo + 1) (by omega) (by omega) (by omega)

/-- `ofCells` reads as the function. -/
theorem Memory.read_ofCells (f : Nat → Byte) {a : Nat} (h : a < 128) : Memory.read (Memory.ofCells f) a = f a := by
  unfold Memory.ofCells
  rw [List.range_eq_range']
  exact Memory.read_foldr_putCell f 128 0 a (by omega) (by omega) (by omega)

end Sys2Proof.Machine
end

