-- ==== Sys2Proof/Laws/Lcd.lean ====
section
/-! SUPPORT. What the attached LCD makes of the bus and of a data byte, said once: what a proof about the device cites
instead of unfolding its operations. -/

namespace Sys2Proof.Machine

/-! ### What it makes of an event on the bus -/

theorem lcdHears_reference (v : BusView) (ev : Event) (d : LcdDevice) : lcdHears v ev .reference d = d := rfl

/-- An event that keeps the discipline changes the record of R262 and R263 alone. -/
theorem lcdHears_kept {v : BusView} {ev : Event} (h : v.breaks ev = false) (answers : List Byte) (d : LcdDevice) :
    lcdHears v ev (.oracle answers) d = { d with settled := (v.next ev).waited, owed := (v.next ev).owed } := by
  simp [lcdHears, h]

/-- An event that breaks nothing and leaves the record as it was leaves the device as it was. -/
theorem lcdHears_same {v : BusView} {ev : Event} {d : LcdDevice} (h : v.breaks ev = false)
    (hs : (v.next ev).waited = d.settled) (ho : (v.next ev).owed = d.owed) (p : LcdParty) : lcdHears v ev p d = d := by
  cases p with
  | reference => rfl
  | oracle answers => rw [lcdHears_kept h, hs, ho]

/-- The release of a bus that is an input already changes nothing of the attached LCD (R113). -/
theorem lcdHears_release_neutral {s : State} (h : s.ddir = .input) (p : LcdParty) :
    lcdHears s.busView .release p s.env.lcd = s.env.lcd :=
  lcdHears_same (by simp [BusView.breaks, State.busView, h]) rfl rfl p

/-- After an event that breaks the discipline nothing is said of the pointer, the cells and the settings. -/
theorem lcdHears_broken {v : BusView} {ev : Event} (h : v.breaks ev = true) (answers : List Byte) (d : LcdDevice) :
    lcdHears v ev (.oracle answers) d =
      lcdUndescribed
        { d with settled := (v.next ev).waited, owed := (v.next ev).owed, slips := d.slips + 1 } := by
  simp [lcdHears, h]

/-- The device's own parts that no event on the bus changes. -/
theorem lcdHears_frame (v : BusView) (ev : Event) (p : LcdParty) (d : LcdDevice) :
    (lcdHears v ev p d).log = d.log ∧ (lcdHears v ev p d).busyN = d.busyN ∧ (lcdHears v ev p d).busyLat = d.busyLat
      ∧ (lcdHears v ev p d).cols = d.cols ∧ (lcdHears v ev p d).latch = d.latch := by
  cases p with
  | reference => exact ⟨rfl, rfl, rfl, rfl, rfl⟩
  | oracle answers => unfold lcdHears; dsimp only; split <;> exact ⟨rfl, rfl, rfl, rfl, rfl⟩

/-- What `State.emitBus` makes of the attached LCD is what an LCD hears. -/
theorem lcdHears_hears (s : State) (ev : Event) : Hears s ev (lcdHears s.busView ev s.env.lcdParty s.env.lcd) := by
  obtain ⟨hlog, hbusy, -, -, hlatch⟩ := lcdHears_frame s.busView ev s.env.lcdParty s.env.lcd
  refine ⟨fun h => by rw [h, lcdHears_reference], fun h => ?_, hlog, hbusy, hlatch⟩
  cases hp : s.env.lcdParty with
  | reference => exact absurd hp h
  | oracle answers =>
    cases hb : s.busView.breaks ev with
    | false => rw [lcdHears_kept hb]; exact ⟨rfl, rfl, fun _ => rfl, fun h => nomatch h⟩
    | true => rw [lcdHears_broken hb]; exact ⟨rfl, rfl, fun h => (nomatch h), fun _ => rfl⟩

/-! ### What it makes of a data byte -/

/-- Within the character positions of a line the byte is stored at the address pointer (R91, R52). -/
theorem lcdStore_within {d : LcdDevice} (h : columnOf d.ac < d.columns) (b : Byte) :
    lcdStore b d = { d with ddram := Memory.write d.ddram d.ac.toNat b, ac := nextAddress d } := by
  simp [lcdStore, h]

/-- Past them the cells and the address pointer are free values (U1, N9). -/
theorem lcdStore_past {d : LcdDevice} (h : ¬ columnOf d.ac < d.columns) (b : Byte) :
    lcdStore b d =
      { d with
        ddram := Memory.ofCells (Config.lcdCell d.log d.slips), ac := Config.lcdPointer d.log d.slips } := by
  simp [lcdStore, h]

/-- A data byte changes the cells and the address pointer, nothing else of the device. -/
theorem lcdStore_frame (b : Byte) (d : LcdDevice) :
    lcdStore b d = { d with ddram := (lcdStore b d).ddram, ac := (lcdStore b d).ac } := by
  unfold lcdStore; split <;> rfl

/-- Before the last position of a line an incrementing pointer goes to the next one (R86). -/
theorem nextAddress_up {d : LcdDevice} (hi : d.increment = true) (hc : columnOf d.ac + 1 < d.columns)
    (hl : columnOf d.ac + 1 < Config.line1Addr.toNat) : nextAddress d = d.ac + 1#7 := by
  simp [nextAddress, hi, hc, hl]

/-- After the first position of a line a decrementing pointer goes to the one before (R86). -/
theorem nextAddress_down {d : LcdDevice} (hi : d.increment = false) (hc : 0 < columnOf d.ac) :
    nextAddress d = d.ac - 1#7 := by
  simp [nextAddress, hi, hc]

/-! ### The canonical form of its display RAM is kept -/

theorem lcdUndescribed_wf (d : LcdDevice) : Memory.wf (lcdUndescribed d).ddram = true := Memory.ofCells_wf _

theorem lcdHears_wf {d : LcdDevice} (h : Memory.wf d.ddram = true) (v : BusView) (ev : Event) (p : LcdParty) :
    Memory.wf (lcdHears v ev p d).ddram = true := by
  cases p with
  | reference => exact h
  | oracle answers =>
    cases hb : v.breaks ev with
    | false => rw [lcdHears_kept hb]; exact h
    | true => rw [lcdHears_broken hb]; exact lcdUndescribed_wf _

theorem refStore_wf {d : LcdDevice} (h : Memory.wf d.ddram = true) (b : Byte) :
    Memory.wf (refStore b d).ddram = true := Memory.write_wf b h d.ac.isLt

theorem lcdStore_wf {d : LcdDevice} (h : Memory.wf d.ddram = true) (b : Byte) :
    Memory.wf (lcdStore b d).ddram = true := by
  unfold lcdStore
  split
  · exact Memory.write_wf b h d.ac.isLt
  · exact Memory.ofCells_wf _

theorem lcdTake_wf {s : State} (rs : Bool) (b : Byte) {f g : LcdDevice → LcdDevice}
    (hf : ∀ d, Memory.wf d.ddram = true → Memory.wf (f d).ddram = true)
    (hg : ∀ d, Memory.wf d.ddram = true → Memory.wf (g d).ddram = true)
    (h : Memory.wf s.env.lcd.ddram = true) : Memory.wf (lcdTake rs b f g s).env.lcd.ddram = true := by
  unfold lcdTake
  dsimp only
  split
  · exact hf _ h
  · split
    · exact hg _ h
    · exact lcdUndescribed_wf _

/-! ### The device over a whole operation -/

/-- A delay having passed, nothing is broken. -/
theorem settledLcd_of_settled (p : LcdParty) {d : LcdDevice} (h : d.settled = true) : settledLcd p d = d := by
  cases p with
  | reference => rfl
  | oracle answers => simp only [settledLcd, h, if_true]; rw [← h]

theorem settledLcd_latch (p : LcdParty) (d : LcdDevice) : (settledLcd p d).latch = d.latch := by
  cases p with
  | reference => rfl
  | oracle answers => simp only [settledLcd]; split <;> rfl

theorem polledBusy_latch (p : LcdParty) (d : LcdDevice) : (polledBusy p d).latch = d.latch := by
  cases p with
  | reference => rfl
  | oracle answers => exact settledLcd_latch (.oracle answers) d

theorem rested_latch (p : LcdParty) (d : LcdDevice) : (rested p d).latch = d.latch := by
  cases p with
  | reference => rfl
  | oracle answers => exact settledLcd_latch (.oracle answers) d

/-- A settled LCD to which no ready status is owed is broken by no write cycle. -/
theorem writeSlips_zero {d : LcdDevice} (hs : d.settled = true) (ho : d.owed = false) (rs : Bool) :
    writeSlips rs d = 0 := by
  simp [writeSlips, hs, ho]

/-- Its class (R99) of every byte, by its decoding and by its value. -/
theorem describedByte_eq (rs : Bool) (b : Byte) : describedByte rs b = statedByte rs b := by
  revert rs b; decide

/-- What the first byte must be (R264), by its decoding and by its value. -/
theorem functionSetLeads_eq (log : List (Bool × Byte)) : functionSetLeads log = functionSetFirst log := by
  cases log with
  | nil => rfl
  | cons p log =>
    obtain ⟨rs, b⟩ := p
    have h : ∀ (rs : Bool) (b : Byte), functionSetLeads [(rs, b)] = functionSetFirst [(rs, b)] := by decide
    exact h rs b

/-- More bytes do not change which came first. -/
theorem functionSetFirst_append {log : List (Bool × Byte)} (h : functionSetFirst log = true)
    (more : List (Bool × Byte)) : functionSetFirst (log ++ more) = true := by
  cases log with
  | nil => cases h
  | cons p log => exact h

end Sys2Proof.Machine
end

