-- ==== Sys2Proof/Laws/Run.lean ====
section
/-! SUPPORT. Runs compose, and what one step can do, said once. -/

namespace Sys2Proof.Machine

theorem run_zero (s : State) : Host.Core.run Sys2Proof.core 0 s = .next s := rfl

/-- Any machine: the first of `n + 1` steps goes on. -/
theorem coreRun_succ (M : Host.Core) (n : Nat) {s t : M.State} (h : M.step s = .next t) :
    M.run (n + 1) s = M.run n t := by
  rw [Host.Core.run, h]

/-- Any machine: a run of `n + 1` steps that answers a next state starts with a step. -/
theorem coreRun_succ_next (M : Host.Core) (n : Nat) {s t : M.State} (h : M.run (n + 1) s = .next t) :
    ∃ u, M.step s = .next u ∧ M.run n u = .next t := by
  unfold Host.Core.run at h
  split at h
  · rename_i u hu
    exact ⟨u, hu, h⟩
  · cases h
  · cases h

theorem run_succ (n : Nat) {s t : State} (h : step s = .next t) :
    Host.Core.run Sys2Proof.core (n + 1) s = Host.Core.run Sys2Proof.core n t :=
  coreRun_succ Sys2Proof.core n h

theorem run_succ_next {n : Nat} {s t : State} (h : Host.Core.run Sys2Proof.core (n + 1) s = .next t) :
    ∃ u, step s = .next u ∧ Host.Core.run Sys2Proof.core n u = .next t :=
  coreRun_succ_next Sys2Proof.core n h

theorem Reaches.refl (s : State) : Reaches s s := ⟨0, rfl⟩

/-- One step and then a run. -/
theorem Reaches.head {s t u : State} (h : step s = .next t) (hr : Reaches t u) : Reaches s u := by
  obtain ⟨n, hn⟩ := hr
  exact ⟨n + 1, (run_succ n h).trans hn⟩

theorem Reaches.single {s t : State} (h : step s = .next t) : Reaches s t := .head h (.refl t)

theorem run_add {m n : Nat} {s t : State} (h : Host.Core.run Sys2Proof.core m s = .next t) :
    Host.Core.run Sys2Proof.core (m + n) s = Host.Core.run Sys2Proof.core n t := by
  induction m generalizing s with
  | zero => cases h; rw [Nat.zero_add]
  | succ m ih =>
    obtain ⟨u, hu, hn⟩ := run_succ_next h
    rw [Nat.succ_add, run_succ _ hu]
    exact ih hn

theorem Reaches.trans {s t u : State} (h : Reaches s t) (h' : Reaches t u) : Reaches s u := by
  obtain ⟨m, hm⟩ := h
  obtain ⟨n, hn⟩ := h'
  exact ⟨m + n, (run_add hm).trans hn⟩

/-- A property that every step keeps holds of every state a run reaches. -/
theorem Reaches.induct {P : State → Prop} (hP : ∀ s t, P s → step s = .next t → P t) {s t : State}
    (h : Reaches s t) (hs : P s) : P t := by
  obtain ⟨n, hn⟩ := h
  induction n generalizing s with
  | zero => cases hn; exact hs
  | succ n ih =>
    obtain ⟨u, hu, hn⟩ := run_succ_next hn
    exact ih (hP s u hs hu) hn

/-! ### One step, by whose turn it is -/

theorem step_device {s : State} {w : PinWord} {i : Instr} (hl : s.env.lcd.latch = some w)
    (hd : decodePins w = .ok i) : step s = exec i (s.setLcd { s.env.lcd with latch := none }) := by
  simp [step, nextTurn, deviceTurn, hl, hd]

theorem step_host {s : State} {c : HostCommand} {rest : List HostCommand} (hl : s.env.lcd.latch = none)
    (hs : s.seq = []) (hp : s.env.program = c :: rest) :
    step s = exec (decodeCommand c) { s with env := { s.env with program := rest } } := by
  simp [step, nextTurn, hostTurn, hl, hs, hp]

theorem nextTurn_line {s : State} {m : Micro} {rest : List Micro} (hl : s.env.lcd.latch = none)
    (hs : s.seq = m :: rest) : nextTurn s = lineTurn m { s with seq := rest } := by
  simp [nextTurn, hl, hs]

/-- A line whose turn is a next state is one step. -/
theorem step_line {s t : State} {m : Micro} {rest : List Micro} (hl : s.env.lcd.latch = none)
    (hs : s.seq = m :: rest) (hm : lineTurn m { s with seq := rest } = .state t) : step s = .next t := by
  simp [step, nextTurn_line hl hs, hm]

/-- Whose turn a step is: the device acted on a byte it had taken, a line of the sequencer ran, or the host's turn
came. -/
theorem step_cases {s t : State} (h : step s = .next t) :
    (∃ w, s.env.lcd.latch = some w ∧
      ((∃ i, decodePins w = .ok i ∧ exec i (s.setLcd { s.env.lcd with latch := none }) = .next t) ∨
        (∃ b, decodePins w = .rejected (.unassignedInstructionByte b) ∧
          t = lcdTake Config.rsInstr b lcdLogged lcdLogged (s.setLcd { s.env.lcd with latch := none })) ∨
        t = s.setLcd { s.env.lcd with latch := none })) ∨
    (s.env.lcd.latch = none ∧ ∃ m rest, s.seq = m :: rest ∧
      (lineTurn m { s with seq := rest } = .state t ∨
        ∃ i u, lineTurn m { s with seq := rest } = .instr i u ∧ exec i u = .next t)) ∨
    (s.env.lcd.latch = none ∧ s.seq = [] ∧
      ((s.env.program = [] ∧ t = s) ∨
        ∃ c rest, s.env.program = c :: rest ∧
          exec (decodeCommand c) { s with env := { s.env with program := rest } } = .next t)) := by
  unfold step at h
  cases hl : s.env.lcd.latch with
  | some w =>
    refine .inl ⟨w, rfl, ?_⟩
    simp only [nextTurn, hl, deviceTurn] at h
    cases hd : decodePins w with
    | ok i => rw [hd] at h; exact .inl ⟨i, rfl, h⟩
    | rejected why =>
      rw [hd] at h
      cases why with
      | unassignedInstructionByte b => exact .inr (.inl ⟨b, rfl, by cases h; rfl⟩)
      | enableLow => exact .inr (.inr (by cases h; rfl))
      | dataRead => exact .inr (.inr (by cases h; rfl))
  | none =>
    cases hs : s.seq with
    | cons m rest =>
      refine .inr (.inl ⟨rfl, m, rest, rfl, ?_⟩)
      rw [nextTurn_line hl hs] at h
      cases ht : lineTurn m { s with seq := rest } with
      | state u => rw [ht] at h; cases h; exact .inl rfl
      | instr i u => rw [ht] at h; exact .inr ⟨i, u, rfl, h⟩
      | refused r => rw [ht] at h; cases h
    | nil =>
      refine .inr (.inr ⟨rfl, rfl, ?_⟩)
      simp only [nextTurn, hl, hs, hostTurn] at h
      cases hp : s.env.program with
      | nil => rw [hp] at h; cases h; exact .inl ⟨rfl, rfl⟩
      | cons c rest => rw [hp] at h; exact .inr ⟨c, rest, rfl, h⟩

/-! ### The shared operations, said once -/

/-- When the attached LCD takes a byte: `E` falls at the end of a write pulse with `RS` and `RW` held and the bus
driven (spec/20_memory.md R71). -/
theorem writePulseEnds_iff (s : State) (rs rw e : Bool) :
    writePulseEnds s rs rw e = true ↔
      s.e = true ∧ e = false ∧ s.rw = false ∧ rw = false ∧ rs = s.rs ∧ s.ddir = .output := by
  simp [writePulseEnds, and_assoc]

/-- What taking a byte changes: the attached LCD alone, and of it not what it took. -/
theorem lcdTake_frame (rs : Bool) (b : Byte) {f g : LcdDevice → LcdDevice} (s : State)
    (hf : ∀ d, (f d).latch = d.latch) (hg : ∀ d, (g d).latch = d.latch) :
    ∃ d, lcdTake rs b f g s = s.setLcd d ∧ d.latch = s.env.lcd.latch := by
  unfold lcdTake
  simp only
  split
  · exact ⟨_, rfl, hf _⟩
  · split
    · exact ⟨_, rfl, hg _⟩
    · exact ⟨_, rfl, rfl⟩

/-- The reference LCD does what R71 and R72 say of the byte. -/
theorem lcdTake_reference {s : State} (h : s.env.lcdParty = .reference) (rs : Bool) (b : Byte)
    (f g : LcdDevice → LcdDevice) : lcdTake rs b f g s = s.setLcd (f (lcdAccept rs b s.env.lcd)) := by
  simp [lcdTake, h]

/-- An LCD the spec describes does what the rule of the byte says. -/
theorem lcdTake_described {s : State} {answers : List Byte} (h : s.env.lcdParty = .oracle answers) {rs : Bool}
    {b : Byte} (hd : lcdDescribed (lcdAccept rs b s.env.lcd) = true) (f g : LcdDevice → LcdDevice) :
    lcdTake rs b f g s = s.setLcd (g (lcdAccept rs b s.env.lcd)) := by
  simp [lcdTake, h, hd]

/-- Of an LCD the spec does not describe every part but its bookkeeping is free. -/
theorem lcdTake_undescribed {s : State} {answers : List Byte} (h : s.env.lcdParty = .oracle answers) {rs : Bool}
    {b : Byte} (hd : lcdDescribed (lcdAccept rs b s.env.lcd) = false) (f g : LcdDevice → LcdDevice) :
    lcdTake rs b f g s = s.setLcd (lcdUndescribed (lcdAccept rs b s.env.lcd)) := by
  simp [lcdTake, h, hd]

/-- One byte more received, not the first: the spec still describes the LCD where it did and the byte is one it
describes. -/
theorem lcdDescribed_accept (rs : Bool) (b : Byte) {d : LcdDevice} (h : d.log ≠ []) :
    lcdDescribed (lcdAccept rs b d) = (lcdDescribed d && describedByte rs b) := by
  obtain ⟨p, log, hl⟩ := List.exists_cons_of_ne_nil h
  simp [lcdDescribed, lcdAccept, functionSetLeads, hl, Bool.and_assoc]

/-- An LCD the spec describes was given a byte. -/
theorem lcdDescribed_log {d : LcdDevice} (h : lcdDescribed d = true) : d.log ≠ [] := by
  intro hl
  simp [lcdDescribed, functionSetLeads, hl] at h

/-- What a driver operation issued by the host can answer. -/
theorem issueCall_next {c : LcdCall} {after : List Micro} {s t : State} (h : issueCall c after s = .next t) :
    entryRefusal c s = none ∧ t = s.pushSeq (callLines c ++ after) := by
  unfold issueCall at h
  split at h
  · cases h
  · rename_i hr
    exact ⟨hr, by cases h; rfl⟩

theorem issueCall_of_entry {c : LcdCall} {s : State} (after : List Micro) (h : entryRefusal c s = none) :
    issueCall c after s = .next (s.pushSeq (callLines c ++ after)) := by
  simp [issueCall, h]

/-- A driver operation is accepted exactly where its operand is in its domain, the pins are idle, and the LCD is
initialised if the operation needs it (R130). -/
theorem entryRefusal_none_iff (c : LcdCall) (s : State) :
    entryRefusal c s = none ↔
      badOperand c = false ∧ s.pinsIdle = true ∧ (needsInit c = true → s.lcdst ≠ .uninitialized) := by
  unfold entryRefusal
  split
  · simp_all
  · split
    · simp_all
    · split
      · simp_all
      · simp_all

/-- What issuing a collaborator's program can answer. -/
theorem issueProgram_next {calls : List LcdCall} {s t : State} (h : issueProgram calls s = .next t) :
    (calls = [] ∧ t = s) ∨
      ∃ c rest, calls = c :: rest ∧ entryRefusal c s = none ∧
        t = s.pushSeq (callLines c ++ rest.map .call) := by
  cases calls with
  | nil => cases h; exact .inl ⟨rfl, rfl⟩
  | cons c rest => exact .inr ⟨c, rest, rfl, issueCall_next h⟩

/-- A status read decodes to the status row, whatever the byte. -/
theorem decodePins_status (b : Byte) :
    decodePins (pinWord Config.rsInstr Config.rwRead true b) =
      .ok (.status (b.getLsbD 7) (b.extractLsb' 0 7)) := by
  revert b; decide

/-- Taken apart and put together again, a status byte is itself. -/
theorem statusByte_parts (b : Byte) : statusByte (b.getLsbD 7) (b.extractLsb' 0 7) = b := by
  revert b; decide

/-- One status read: the environment's byte, sampled. -/
theorem step_readStatus {s : State} {rest : List Micro} (hl : s.env.lcd.latch = none)
    (hs : s.seq = .readStatus :: rest) :
    step s = .next (readStatus (lcdAnswer { s with seq := rest }).1 (lcdAnswer { s with seq := rest }).2) := by
  simp only [step, nextTurn_line hl hs, lineTurn, statusTurn, decodePins_status]
  show Host.Outcome.next _ = _
  rw [statusByte_parts]

/-- What the environment's answer changes: itself only. -/
theorem lcdAnswer_frame (s : State) :
    ∃ e, (lcdAnswer s).2 = { s with env := e } ∧ e.program = s.env.program ∧ e.lcd.latch = s.env.lcd.latch ∧
      e.lcd.ddram = s.env.lcd.ddram ∧ e.dispatch = s.env.dispatch ∧ e.banner = s.env.banner := by
  unfold lcdAnswer
  split
  · exact ⟨_, rfl, rfl, rfl, rfl, rfl, rfl⟩
  · exact ⟨_, rfl, rfl, rfl, rfl, rfl, rfl⟩
  · refine ⟨_, rfl, rfl, ?_, ?_, rfl, rfl⟩ <;> (dsimp only [refLcdAnswered]; split <;> rfl)

/-- What a column answer changes: the environment only. -/
theorem keyAnswer_frame (s : State) :
    ∃ e, (keyAnswer s).2 = { s with env := e } ∧ e.program = s.env.program ∧ e.lcd = s.env.lcd ∧
      e.dispatch = s.env.dispatch ∧ e.banner = s.env.banner := by
  unfold keyAnswer
  split
  · exact ⟨_, rfl, rfl, rfl, rfl, rfl⟩
  · exact ⟨_, rfl, rfl, rfl, rfl, rfl⟩
  · exact ⟨_, rfl, rfl, rfl, rfl, rfl⟩

end Sys2Proof.Machine
end

