-- ==== Sys2Proof/Laws/State.lean ====
section
/-! SUPPORT. One lemma per field per update of the state: what the update puts there, or that it leaves the field
alone. -/

namespace Sys2Proof.Machine

/-! ### `State.emit` -/

@[simp] theorem State.emit_rs (s : State) (ev : Event) : (s.emit ev).rs = s.rs := rfl
@[simp] theorem State.emit_rw (s : State) (ev : Event) : (s.emit ev).rw = s.rw := rfl
@[simp] theorem State.emit_e (s : State) (ev : Event) : (s.emit ev).e = s.e := rfl
@[simp] theorem State.emit_dout (s : State) (ev : Event) : (s.emit ev).dout = s.dout := rfl
@[simp] theorem State.emit_ddir (s : State) (ev : Event) : (s.emit ev).ddir = s.ddir := rfl
@[simp] theorem State.emit_lcdst (s : State) (ev : Event) : (s.emit ev).lcdst = s.lcdst := rfl
@[simp] theorem State.emit_row (s : State) (ev : Event) : (s.emit ev).row = s.row := rfl
@[simp] theorem State.emit_rowout (s : State) (ev : Event) : (s.emit ev).rowout = s.rowout := rfl
@[simp] theorem State.emit_mask (s : State) (ev : Event) : (s.emit ev).mask = s.mask := rfl
@[simp] theorem State.emit_cnt (s : State) (ev : Event) : (s.emit ev).cnt = s.cnt := rfl
@[simp] theorem State.emit_seq (s : State) (ev : Event) : (s.emit ev).seq = s.seq := rfl
@[simp] theorem State.emit_poll (s : State) (ev : Event) : (s.emit ev).poll = s.poll := rfl
@[simp] theorem State.emit_result (s : State) (ev : Event) : (s.emit ev).result = s.result := rfl
@[simp] theorem State.emit_trace (s : State) (ev : Event) : (s.emit ev).trace = s.trace ++ [ev] := rfl
@[simp] theorem State.emit_env (s : State) (ev : Event) : (s.emit ev).env = s.env := rfl

/-! ### `State.emitBus` -/

@[simp] theorem State.emitBus_rs (s : State) (ev : Event) : (s.emitBus ev).rs = s.rs := rfl
@[simp] theorem State.emitBus_rw (s : State) (ev : Event) : (s.emitBus ev).rw = s.rw := rfl
@[simp] theorem State.emitBus_e (s : State) (ev : Event) : (s.emitBus ev).e = s.e := rfl
@[simp] theorem State.emitBus_dout (s : State) (ev : Event) : (s.emitBus ev).dout = s.dout := rfl
@[simp] theorem State.emitBus_ddir (s : State) (ev : Event) : (s.emitBus ev).ddir = s.ddir := rfl
@[simp] theorem State.emitBus_lcdst (s : State) (ev : Event) : (s.emitBus ev).lcdst = s.lcdst := rfl
@[simp] theorem State.emitBus_row (s : State) (ev : Event) : (s.emitBus ev).row = s.row := rfl
@[simp] theorem State.emitBus_rowout (s : State) (ev : Event) : (s.emitBus ev).rowout = s.rowout := rfl
@[simp] theorem State.emitBus_mask (s : State) (ev : Event) : (s.emitBus ev).mask = s.mask := rfl
@[simp] theorem State.emitBus_cnt (s : State) (ev : Event) : (s.emitBus ev).cnt = s.cnt := rfl
@[simp] theorem State.emitBus_seq (s : State) (ev : Event) : (s.emitBus ev).seq = s.seq := rfl
@[simp] theorem State.emitBus_poll (s : State) (ev : Event) : (s.emitBus ev).poll = s.poll := rfl
@[simp] theorem State.emitBus_result (s : State) (ev : Event) : (s.emitBus ev).result = s.result := rfl
@[simp] theorem State.emitBus_trace (s : State) (ev : Event) : (s.emitBus ev).trace = s.trace ++ [ev] := rfl
@[simp] theorem State.emitBus_env (s : State) (ev : Event) :
    (s.emitBus ev).env = { s.env with lcd := lcdHears s.busView ev s.env.lcdParty s.env.lcd } := rfl

/-! ### `State.pushSeq` -/

@[simp] theorem State.pushSeq_rs (s : State) (prog : List Micro) : (s.pushSeq prog).rs = s.rs := rfl
@[simp] theorem State.pushSeq_rw (s : State) (prog : List Micro) : (s.pushSeq prog).rw = s.rw := rfl
@[simp] theorem State.pushSeq_e (s : State) (prog : List Micro) : (s.pushSeq prog).e = s.e := rfl
@[simp] theorem State.pushSeq_dout (s : State) (prog : List Micro) : (s.pushSeq prog).dout = s.dout := rfl
@[simp] theorem State.pushSeq_ddir (s : State) (prog : List Micro) : (s.pushSeq prog).ddir = s.ddir := rfl
@[simp] theorem State.pushSeq_lcdst (s : State) (prog : List Micro) : (s.pushSeq prog).lcdst = s.lcdst := rfl
@[simp] theorem State.pushSeq_row (s : State) (prog : List Micro) : (s.pushSeq prog).row = s.row := rfl
@[simp] theorem State.pushSeq_rowout (s : State) (prog : List Micro) : (s.pushSeq prog).rowout = s.rowout := rfl
@[simp] theorem State.pushSeq_mask (s : State) (prog : List Micro) : (s.pushSeq prog).mask = s.mask := rfl
@[simp] theorem State.pushSeq_cnt (s : State) (prog : List Micro) : (s.pushSeq prog).cnt = s.cnt := rfl
@[simp] theorem State.pushSeq_seq (s : State) (prog : List Micro) : (s.pushSeq prog).seq = prog ++ s.seq := rfl
@[simp] theorem State.pushSeq_poll (s : State) (prog : List Micro) : (s.pushSeq prog).poll = s.poll := rfl
@[simp] theorem State.pushSeq_result (s : State) (prog : List Micro) : (s.pushSeq prog).result = s.result := rfl
@[simp] theorem State.pushSeq_trace (s : State) (prog : List Micro) : (s.pushSeq prog).trace = s.trace := rfl
@[simp] theorem State.pushSeq_env (s : State) (prog : List Micro) : (s.pushSeq prog).env = s.env := rfl

/-! ### `State.setLcd` -/

@[simp] theorem State.setLcd_rs (s : State) (d : LcdDevice) : (s.setLcd d).rs = s.rs := rfl
@[simp] theorem State.setLcd_rw (s : State) (d : LcdDevice) : (s.setLcd d).rw = s.rw := rfl
@[simp] theorem State.setLcd_e (s : State) (d : LcdDevice) : (s.setLcd d).e = s.e := rfl
@[simp] theorem State.setLcd_dout (s : State) (d : LcdDevice) : (s.setLcd d).dout = s.dout := rfl
@[simp] theorem State.setLcd_ddir (s : State) (d : LcdDevice) : (s.setLcd d).ddir = s.ddir := rfl
@[simp] theorem State.setLcd_lcdst (s : State) (d : LcdDevice) : (s.setLcd d).lcdst = s.lcdst := rfl
@[simp] theorem State.setLcd_row (s : State) (d : LcdDevice) : (s.setLcd d).row = s.row := rfl
@[simp] theorem State.setLcd_rowout (s : State) (d : LcdDevice) : (s.setLcd d).rowout = s.rowout := rfl
@[simp] theorem State.setLcd_mask (s : State) (d : LcdDevice) : (s.setLcd d).mask = s.mask := rfl
@[simp] theorem State.setLcd_cnt (s : State) (d : LcdDevice) : (s.setLcd d).cnt = s.cnt := rfl
@[simp] theorem State.setLcd_seq (s : State) (d : LcdDevice) : (s.setLcd d).seq = s.seq := rfl
@[simp] theorem State.setLcd_poll (s : State) (d : LcdDevice) : (s.setLcd d).poll = s.poll := rfl
@[simp] theorem State.setLcd_result (s : State) (d : LcdDevice) : (s.setLcd d).result = s.result := rfl
@[simp] theorem State.setLcd_trace (s : State) (d : LcdDevice) : (s.setLcd d).trace = s.trace := rfl
@[simp] theorem State.setLcd_env (s : State) (d : LcdDevice) : (s.setLcd d).env = { s.env with lcd := d } := rfl

/-! ### `setControlLines` -/

@[simp] theorem setControlLines_rs (s : State) (rs rw e : Bool) : (setControlLines rs rw e s).rs = rs := rfl
@[simp] theorem setControlLines_rw (s : State) (rs rw e : Bool) : (setControlLines rs rw e s).rw = rw := rfl
@[simp] theorem setControlLines_e (s : State) (rs rw e : Bool) : (setControlLines rs rw e s).e = e := rfl
@[simp] theorem setControlLines_dout (s : State) (rs rw e : Bool) : (setControlLines rs rw e s).dout = s.dout := rfl
@[simp] theorem setControlLines_ddir (s : State) (rs rw e : Bool) : (setControlLines rs rw e s).ddir = s.ddir := rfl
@[simp] theorem setControlLines_lcdst (s : State) (rs rw e : Bool) : (setControlLines rs rw e s).lcdst = s.lcdst := rfl
@[simp] theorem setControlLines_row (s : State) (rs rw e : Bool) : (setControlLines rs rw e s).row = s.row := rfl
@[simp] theorem setControlLines_rowout (s : State) (rs rw e : Bool) : (setControlLines rs rw e s).rowout = s.rowout := rfl
@[simp] theorem setControlLines_mask (s : State) (rs rw e : Bool) : (setControlLines rs rw e s).mask = s.mask := rfl
@[simp] theorem setControlLines_cnt (s : State) (rs rw e : Bool) : (setControlLines rs rw e s).cnt = s.cnt := rfl
@[simp] theorem setControlLines_seq (s : State) (rs rw e : Bool) : (setControlLines rs rw e s).seq = s.seq := rfl
@[simp] theorem setControlLines_poll (s : State) (rs rw e : Bool) : (setControlLines rs rw e s).poll = s.poll := rfl
@[simp] theorem setControlLines_result (s : State) (rs rw e : Bool) : (setControlLines rs rw e s).result = s.result := rfl
@[simp] theorem setControlLines_trace (s : State) (rs rw e : Bool) : (setControlLines rs rw e s).trace = s.trace ++ [.ctl rs rw e] := rfl
@[simp] theorem setControlLines_env (s : State) (rs rw e : Bool) :
    (setControlLines rs rw e s).env =
      { s.env with
        lcd := { lcdHears s.busView (.ctl rs rw e) s.env.lcdParty s.env.lcd with latch := latchAfter s rs rw e } } := rfl

/-! ### `driveData` -/

@[simp] theorem driveData_rs (s : State) (b : Byte) : (driveData b s).rs = s.rs := rfl
@[simp] theorem driveData_rw (s : State) (b : Byte) : (driveData b s).rw = s.rw := rfl
@[simp] theorem driveData_e (s : State) (b : Byte) : (driveData b s).e = s.e := rfl
@[simp] theorem driveData_dout (s : State) (b : Byte) : (driveData b s).dout = b := rfl
@[simp] theorem driveData_ddir (s : State) (b : Byte) : (driveData b s).ddir = .output := rfl
@[simp] theorem driveData_lcdst (s : State) (b : Byte) : (driveData b s).lcdst = s.lcdst := rfl
@[simp] theorem driveData_row (s : State) (b : Byte) : (driveData b s).row = s.row := rfl
@[simp] theorem driveData_rowout (s : State) (b : Byte) : (driveData b s).rowout = s.rowout := rfl
@[simp] theorem driveData_mask (s : State) (b : Byte) : (driveData b s).mask = s.mask := rfl
@[simp] theorem driveData_cnt (s : State) (b : Byte) : (driveData b s).cnt = s.cnt := rfl
@[simp] theorem driveData_seq (s : State) (b : Byte) : (driveData b s).seq = s.seq := rfl
@[simp] theorem driveData_poll (s : State) (b : Byte) : (driveData b s).poll = s.poll := rfl
@[simp] theorem driveData_result (s : State) (b : Byte) : (driveData b s).result = s.result := rfl
@[simp] theorem driveData_trace (s : State) (b : Byte) : (driveData b s).trace = s.trace ++ [.drive b] := rfl
@[simp] theorem driveData_env (s : State) (b : Byte) :
    (driveData b s).env = { s.env with lcd := lcdHears s.busView (.drive b) s.env.lcdParty s.env.lcd } := rfl

/-! ### `releaseData` -/

@[simp] theorem releaseData_rs (s : State) : (releaseData s).rs = s.rs := rfl
@[simp] theorem releaseData_rw (s : State) : (releaseData s).rw = s.rw := rfl
@[simp] theorem releaseData_e (s : State) : (releaseData s).e = s.e := rfl
@[simp] theorem releaseData_dout (s : State) : (releaseData s).dout = 0#8 := rfl
@[simp] theorem releaseData_ddir (s : State) : (releaseData s).ddir = .input := rfl
@[simp] theorem releaseData_lcdst (s : State) : (releaseData s).lcdst = s.lcdst := rfl
@[simp] theorem releaseData_row (s : State) : (releaseData s).row = s.row := rfl
@[simp] theorem releaseData_rowout (s : State) : (releaseData s).rowout = s.rowout := rfl
@[simp] theorem releaseData_mask (s : State) : (releaseData s).mask = s.mask := rfl
@[simp] theorem releaseData_cnt (s : State) : (releaseData s).cnt = s.cnt := rfl
@[simp] theorem releaseData_seq (s : State) : (releaseData s).seq = s.seq := rfl
@[simp] theorem releaseData_poll (s : State) : (releaseData s).poll = s.poll := rfl
@[simp] theorem releaseData_result (s : State) : (releaseData s).result = s.result := rfl
@[simp] theorem releaseData_trace (s : State) : (releaseData s).trace = s.trace ++ [.release] := rfl
@[simp] theorem releaseData_env (s : State) :
    (releaseData s).env = { s.env with lcd := lcdHears s.busView (.release) s.env.lcdParty s.env.lcd } := rfl

/-! ### `delayBus` -/

@[simp] theorem delayBus_rs (s : State) (n : Nat) : (delayBus n s).rs = s.rs := rfl
@[simp] theorem delayBus_rw (s : State) (n : Nat) : (delayBus n s).rw = s.rw := rfl
@[simp] theorem delayBus_e (s : State) (n : Nat) : (delayBus n s).e = s.e := rfl
@[simp] theorem delayBus_dout (s : State) (n : Nat) : (delayBus n s).dout = s.dout := rfl
@[simp] theorem delayBus_ddir (s : State) (n : Nat) : (delayBus n s).ddir = s.ddir := rfl
@[simp] theorem delayBus_lcdst (s : State) (n : Nat) : (delayBus n s).lcdst = s.lcdst := rfl
@[simp] theorem delayBus_row (s : State) (n : Nat) : (delayBus n s).row = s.row := rfl
@[simp] theorem delayBus_rowout (s : State) (n : Nat) : (delayBus n s).rowout = s.rowout := rfl
@[simp] theorem delayBus_mask (s : State) (n : Nat) : (delayBus n s).mask = s.mask := rfl
@[simp] theorem delayBus_cnt (s : State) (n : Nat) : (delayBus n s).cnt = s.cnt := rfl
@[simp] theorem delayBus_seq (s : State) (n : Nat) : (delayBus n s).seq = s.seq := rfl
@[simp] theorem delayBus_poll (s : State) (n : Nat) : (delayBus n s).poll = s.poll := rfl
@[simp] theorem delayBus_result (s : State) (n : Nat) : (delayBus n s).result = s.result := rfl
@[simp] theorem delayBus_trace (s : State) (n : Nat) : (delayBus n s).trace = s.trace ++ [.delayBus n] := rfl
@[simp] theorem delayBus_env (s : State) (n : Nat) :
    (delayBus n s).env = { s.env with lcd := lcdHears s.busView (.delayBus n) s.env.lcdParty s.env.lcd } := rfl

/-! ### `delayScan` -/

@[simp] theorem delayScan_rs (s : State) (n : Nat) : (delayScan n s).rs = s.rs := rfl
@[simp] theorem delayScan_rw (s : State) (n : Nat) : (delayScan n s).rw = s.rw := rfl
@[simp] theorem delayScan_e (s : State) (n : Nat) : (delayScan n s).e = s.e := rfl
@[simp] theorem delayScan_dout (s : State) (n : Nat) : (delayScan n s).dout = s.dout := rfl
@[simp] theorem delayScan_ddir (s : State) (n : Nat) : (delayScan n s).ddir = s.ddir := rfl
@[simp] theorem delayScan_lcdst (s : State) (n : Nat) : (delayScan n s).lcdst = s.lcdst := rfl
@[simp] theorem delayScan_row (s : State) (n : Nat) : (delayScan n s).row = s.row := rfl
@[simp] theorem delayScan_rowout (s : State) (n : Nat) : (delayScan n s).rowout = s.rowout := rfl
@[simp] theorem delayScan_mask (s : State) (n : Nat) : (delayScan n s).mask = s.mask := rfl
@[simp] theorem delayScan_cnt (s : State) (n : Nat) : (delayScan n s).cnt = s.cnt := rfl
@[simp] theorem delayScan_seq (s : State) (n : Nat) : (delayScan n s).seq = s.seq := rfl
@[simp] theorem delayScan_poll (s : State) (n : Nat) : (delayScan n s).poll = s.poll := rfl
@[simp] theorem delayScan_result (s : State) (n : Nat) : (delayScan n s).result = s.result := rfl
@[simp] theorem delayScan_trace (s : State) (n : Nat) : (delayScan n s).trace = s.trace ++ [.delayScan n] := rfl
@[simp] theorem delayScan_env (s : State) (n : Nat) : (delayScan n s).env = s.env := rfl

/-! ### `takeSample` -/

@[simp] theorem takeSample_rs (s : State) (b : Byte) : (takeSample b s).rs = s.rs := rfl
@[simp] theorem takeSample_rw (s : State) (b : Byte) : (takeSample b s).rw = s.rw := rfl
@[simp] theorem takeSample_e (s : State) (b : Byte) : (takeSample b s).e = s.e := rfl
@[simp] theorem takeSample_dout (s : State) (b : Byte) : (takeSample b s).dout = s.dout := rfl
@[simp] theorem takeSample_ddir (s : State) (b : Byte) : (takeSample b s).ddir = .input := rfl
@[simp] theorem takeSample_lcdst (s : State) (b : Byte) : (takeSample b s).lcdst = s.lcdst := rfl
@[simp] theorem takeSample_row (s : State) (b : Byte) : (takeSample b s).row = s.row := rfl
@[simp] theorem takeSample_rowout (s : State) (b : Byte) : (takeSample b s).rowout = s.rowout := rfl
@[simp] theorem takeSample_mask (s : State) (b : Byte) : (takeSample b s).mask = s.mask := rfl
@[simp] theorem takeSample_cnt (s : State) (b : Byte) : (takeSample b s).cnt = s.cnt := rfl
@[simp] theorem takeSample_seq (s : State) (b : Byte) : (takeSample b s).seq = s.seq := rfl
@[simp] theorem takeSample_poll (s : State) (b : Byte) : (takeSample b s).poll = s.poll := rfl
@[simp] theorem takeSample_result (s : State) (b : Byte) : (takeSample b s).result = s.result := rfl
@[simp] theorem takeSample_trace (s : State) (b : Byte) : (takeSample b s).trace = s.trace ++ [.sample b] := rfl
@[simp] theorem takeSample_env (s : State) (b : Byte) :
    (takeSample b s).env = { s.env with lcd := lcdHears s.busView (.sample b) s.env.lcdParty s.env.lcd } := rfl

/-! ### `readStatus` -/

@[simp] theorem readStatus_rs (s : State) (b : Byte) : (readStatus b s).rs = s.rs := rfl
@[simp] theorem readStatus_rw (s : State) (b : Byte) : (readStatus b s).rw = s.rw := rfl
@[simp] theorem readStatus_e (s : State) (b : Byte) : (readStatus b s).e = s.e := rfl
@[simp] theorem readStatus_dout (s : State) (b : Byte) : (readStatus b s).dout = s.dout := rfl
@[simp] theorem readStatus_ddir (s : State) (b : Byte) : (readStatus b s).ddir = .input := rfl
@[simp] theorem readStatus_lcdst (s : State) (b : Byte) : (readStatus b s).lcdst = s.lcdst := rfl
@[simp] theorem readStatus_row (s : State) (b : Byte) : (readStatus b s).row = s.row := rfl
@[simp] theorem readStatus_rowout (s : State) (b : Byte) : (readStatus b s).rowout = s.rowout := rfl
@[simp] theorem readStatus_mask (s : State) (b : Byte) : (readStatus b s).mask = s.mask := rfl
@[simp] theorem readStatus_cnt (s : State) (b : Byte) : (readStatus b s).cnt = s.cnt := rfl
@[simp] theorem readStatus_seq (s : State) (b : Byte) : (readStatus b s).seq = s.seq := rfl
@[simp] theorem readStatus_poll (s : State) (b : Byte) : (readStatus b s).poll = b := rfl
@[simp] theorem readStatus_result (s : State) (b : Byte) : (readStatus b s).result = s.result := rfl
@[simp] theorem readStatus_trace (s : State) (b : Byte) : (readStatus b s).trace = s.trace ++ [.sample b] := rfl
@[simp] theorem readStatus_env (s : State) (b : Byte) :
    (readStatus b s).env = { s.env with lcd := lcdHears s.busView (.sample b) s.env.lcdParty s.env.lcd } := rfl

/-! ### `markReady` -/

@[simp] theorem markReady_rs (s : State) : (markReady s).rs = s.rs := rfl
@[simp] theorem markReady_rw (s : State) : (markReady s).rw = s.rw := rfl
@[simp] theorem markReady_e (s : State) : (markReady s).e = s.e := rfl
@[simp] theorem markReady_dout (s : State) : (markReady s).dout = s.dout := rfl
@[simp] theorem markReady_ddir (s : State) : (markReady s).ddir = s.ddir := rfl
@[simp] theorem markReady_lcdst (s : State) : (markReady s).lcdst = .ready := rfl
@[simp] theorem markReady_row (s : State) : (markReady s).row = s.row := rfl
@[simp] theorem markReady_rowout (s : State) : (markReady s).rowout = s.rowout := rfl
@[simp] theorem markReady_mask (s : State) : (markReady s).mask = s.mask := rfl
@[simp] theorem markReady_cnt (s : State) : (markReady s).cnt = s.cnt := rfl
@[simp] theorem markReady_seq (s : State) : (markReady s).seq = s.seq := rfl
@[simp] theorem markReady_poll (s : State) : (markReady s).poll = s.poll := rfl
@[simp] theorem markReady_result (s : State) : (markReady s).result = s.result := rfl
@[simp] theorem markReady_trace (s : State) : (markReady s).trace = s.trace := rfl
@[simp] theorem markReady_env (s : State) : (markReady s).env = s.env := rfl

/-! ### `activateRow` -/

@[simp] theorem activateRow_rs (s : State) : (activateRow s).rs = s.rs := rfl
@[simp] theorem activateRow_rw (s : State) : (activateRow s).rw = s.rw := rfl
@[simp] theorem activateRow_e (s : State) : (activateRow s).e = s.e := rfl
@[simp] theorem activateRow_dout (s : State) : (activateRow s).dout = s.dout := rfl
@[simp] theorem activateRow_ddir (s : State) : (activateRow s).ddir = s.ddir := rfl
@[simp] theorem activateRow_lcdst (s : State) : (activateRow s).lcdst = s.lcdst := rfl
@[simp] theorem activateRow_row (s : State) : (activateRow s).row = s.row := rfl
@[simp] theorem activateRow_rowout (s : State) : (activateRow s).rowout = onehot5 s.row := rfl
@[simp] theorem activateRow_mask (s : State) : (activateRow s).mask = s.mask := rfl
@[simp] theorem activateRow_cnt (s : State) : (activateRow s).cnt = s.cnt := rfl
@[simp] theorem activateRow_seq (s : State) : (activateRow s).seq = s.seq := rfl
@[simp] theorem activateRow_poll (s : State) : (activateRow s).poll = s.poll := rfl
@[simp] theorem activateRow_result (s : State) : (activateRow s).result = s.result := rfl
@[simp] theorem activateRow_trace (s : State) : (activateRow s).trace = s.trace ++ [.row (onehot5 s.row)] := rfl
@[simp] theorem activateRow_env (s : State) : (activateRow s).env = s.env := rfl

/-! ### `deactivateRow` -/

@[simp] theorem deactivateRow_rs (s : State) : (deactivateRow s).rs = s.rs := rfl
@[simp] theorem deactivateRow_rw (s : State) : (deactivateRow s).rw = s.rw := rfl
@[simp] theorem deactivateRow_e (s : State) : (deactivateRow s).e = s.e := rfl
@[simp] theorem deactivateRow_dout (s : State) : (deactivateRow s).dout = s.dout := rfl
@[simp] theorem deactivateRow_ddir (s : State) : (deactivateRow s).ddir = s.ddir := rfl
@[simp] theorem deactivateRow_lcdst (s : State) : (deactivateRow s).lcdst = s.lcdst := rfl
@[simp] theorem deactivateRow_row (s : State) : (deactivateRow s).row = s.row := rfl
@[simp] theorem deactivateRow_rowout (s : State) : (deactivateRow s).rowout = 0#5 := rfl
@[simp] theorem deactivateRow_mask (s : State) : (deactivateRow s).mask = s.mask := rfl
@[simp] theorem deactivateRow_cnt (s : State) : (deactivateRow s).cnt = s.cnt := rfl
@[simp] theorem deactivateRow_seq (s : State) : (deactivateRow s).seq = s.seq := rfl
@[simp] theorem deactivateRow_poll (s : State) : (deactivateRow s).poll = s.poll := rfl
@[simp] theorem deactivateRow_result (s : State) : (deactivateRow s).result = s.result := rfl
@[simp] theorem deactivateRow_trace (s : State) : (deactivateRow s).trace = s.trace ++ [.row 0#5] := rfl
@[simp] theorem deactivateRow_env (s : State) : (deactivateRow s).env = s.env := rfl

/-! ### `advanceRow` -/

@[simp] theorem advanceRow_rs (s : State) : (advanceRow s).rs = s.rs := rfl
@[simp] theorem advanceRow_rw (s : State) : (advanceRow s).rw = s.rw := rfl
@[simp] theorem advanceRow_e (s : State) : (advanceRow s).e = s.e := rfl
@[simp] theorem advanceRow_dout (s : State) : (advanceRow s).dout = s.dout := rfl
@[simp] theorem advanceRow_ddir (s : State) : (advanceRow s).ddir = s.ddir := rfl
@[simp] theorem advanceRow_lcdst (s : State) : (advanceRow s).lcdst = s.lcdst := rfl
@[simp] theorem advanceRow_row (s : State) : (advanceRow s).row = nextRow s.row := rfl
@[simp] theorem advanceRow_rowout (s : State) : (advanceRow s).rowout = s.rowout := rfl
@[simp] theorem advanceRow_mask (s : State) : (advanceRow s).mask = s.mask := rfl
@[simp] theorem advanceRow_cnt (s : State) : (advanceRow s).cnt = s.cnt := rfl
@[simp] theorem advanceRow_seq (s : State) : (advanceRow s).seq = s.seq := rfl
@[simp] theorem advanceRow_poll (s : State) : (advanceRow s).poll = s.poll := rfl
@[simp] theorem advanceRow_result (s : State) : (advanceRow s).result = s.result := rfl
@[simp] theorem advanceRow_trace (s : State) : (advanceRow s).trace = s.trace := rfl
@[simp] theorem advanceRow_env (s : State) : (advanceRow s).env = s.env := rfl

/-! ### `clearCount` -/

@[simp] theorem clearCount_rs (s : State) : (clearCount s).rs = s.rs := rfl
@[simp] theorem clearCount_rw (s : State) : (clearCount s).rw = s.rw := rfl
@[simp] theorem clearCount_e (s : State) : (clearCount s).e = s.e := rfl
@[simp] theorem clearCount_dout (s : State) : (clearCount s).dout = s.dout := rfl
@[simp] theorem clearCount_ddir (s : State) : (clearCount s).ddir = s.ddir := rfl
@[simp] theorem clearCount_lcdst (s : State) : (clearCount s).lcdst = s.lcdst := rfl
@[simp] theorem clearCount_row (s : State) : (clearCount s).row = s.row := rfl
@[simp] theorem clearCount_rowout (s : State) : (clearCount s).rowout = s.rowout := rfl
@[simp] theorem clearCount_mask (s : State) : (clearCount s).mask = s.mask := rfl
@[simp] theorem clearCount_cnt (s : State) : (clearCount s).cnt = 0#7 := rfl
@[simp] theorem clearCount_seq (s : State) : (clearCount s).seq = s.seq := rfl
@[simp] theorem clearCount_poll (s : State) : (clearCount s).poll = s.poll := rfl
@[simp] theorem clearCount_result (s : State) : (clearCount s).result = s.result := rfl
@[simp] theorem clearCount_trace (s : State) : (clearCount s).trace = s.trace := rfl
@[simp] theorem clearCount_env (s : State) : (clearCount s).env = s.env := rfl

/-! ### `bumpCount` -/

@[simp] theorem bumpCount_rs (s : State) : (bumpCount s).rs = s.rs := rfl
@[simp] theorem bumpCount_rw (s : State) : (bumpCount s).rw = s.rw := rfl
@[simp] theorem bumpCount_e (s : State) : (bumpCount s).e = s.e := rfl
@[simp] theorem bumpCount_dout (s : State) : (bumpCount s).dout = s.dout := rfl
@[simp] theorem bumpCount_ddir (s : State) : (bumpCount s).ddir = s.ddir := rfl
@[simp] theorem bumpCount_lcdst (s : State) : (bumpCount s).lcdst = s.lcdst := rfl
@[simp] theorem bumpCount_row (s : State) : (bumpCount s).row = s.row := rfl
@[simp] theorem bumpCount_rowout (s : State) : (bumpCount s).rowout = s.rowout := rfl
@[simp] theorem bumpCount_mask (s : State) : (bumpCount s).mask = s.mask := rfl
@[simp] theorem bumpCount_cnt (s : State) : (bumpCount s).cnt = s.cnt + 1#7 := rfl
@[simp] theorem bumpCount_seq (s : State) : (bumpCount s).seq = s.seq := rfl
@[simp] theorem bumpCount_poll (s : State) : (bumpCount s).poll = s.poll := rfl
@[simp] theorem bumpCount_result (s : State) : (bumpCount s).result = s.result := rfl
@[simp] theorem bumpCount_trace (s : State) : (bumpCount s).trace = s.trace := rfl
@[simp] theorem bumpCount_env (s : State) : (bumpCount s).env = s.env := rfl

/-! ### `scanDone` -/

@[simp] theorem scanDone_rs (s : State) : (scanDone s).rs = s.rs := rfl
@[simp] theorem scanDone_rw (s : State) : (scanDone s).rw = s.rw := rfl
@[simp] theorem scanDone_e (s : State) : (scanDone s).e = s.e := rfl
@[simp] theorem scanDone_dout (s : State) : (scanDone s).dout = s.dout := rfl
@[simp] theorem scanDone_ddir (s : State) : (scanDone s).ddir = s.ddir := rfl
@[simp] theorem scanDone_lcdst (s : State) : (scanDone s).lcdst = s.lcdst := rfl
@[simp] theorem scanDone_row (s : State) : (scanDone s).row = s.row := rfl
@[simp] theorem scanDone_rowout (s : State) : (scanDone s).rowout = s.rowout := rfl
@[simp] theorem scanDone_mask (s : State) : (scanDone s).mask = Config.freeMask s.env.draws := rfl
@[simp] theorem scanDone_cnt (s : State) : (scanDone s).cnt = Config.freeCount s.env.draws := rfl
@[simp] theorem scanDone_seq (s : State) : (scanDone s).seq = s.seq := rfl
@[simp] theorem scanDone_poll (s : State) : (scanDone s).poll = s.poll := rfl
@[simp] theorem scanDone_result (s : State) : (scanDone s).result = s.result := rfl
@[simp] theorem scanDone_trace (s : State) : (scanDone s).trace = s.trace := rfl
@[simp] theorem scanDone_env (s : State) : (scanDone s).env = { s.env with draws := s.env.draws + 1 } := rfl

/-! ### The two conditional updates of `LCDST` -/

@[simp] theorem markBusy_rs (s : State) : (markBusy s).rs = s.rs := by unfold markBusy; split <;> rfl
@[simp] theorem markBusy_rw (s : State) : (markBusy s).rw = s.rw := by unfold markBusy; split <;> rfl
@[simp] theorem markBusy_e (s : State) : (markBusy s).e = s.e := by unfold markBusy; split <;> rfl
@[simp] theorem markBusy_dout (s : State) : (markBusy s).dout = s.dout := by unfold markBusy; split <;> rfl
@[simp] theorem markBusy_ddir (s : State) : (markBusy s).ddir = s.ddir := by unfold markBusy; split <;> rfl
@[simp] theorem markBusy_row (s : State) : (markBusy s).row = s.row := by unfold markBusy; split <;> rfl
@[simp] theorem markBusy_rowout (s : State) : (markBusy s).rowout = s.rowout := by unfold markBusy; split <;> rfl
@[simp] theorem markBusy_mask (s : State) : (markBusy s).mask = s.mask := by unfold markBusy; split <;> rfl
@[simp] theorem markBusy_cnt (s : State) : (markBusy s).cnt = s.cnt := by unfold markBusy; split <;> rfl
@[simp] theorem markBusy_seq (s : State) : (markBusy s).seq = s.seq := by unfold markBusy; split <;> rfl
@[simp] theorem markBusy_poll (s : State) : (markBusy s).poll = s.poll := by unfold markBusy; split <;> rfl
@[simp] theorem markBusy_result (s : State) : (markBusy s).result = s.result := by unfold markBusy; split <;> rfl
@[simp] theorem markBusy_trace (s : State) : (markBusy s).trace = s.trace := by unfold markBusy; split <;> rfl
@[simp] theorem markBusy_env (s : State) : (markBusy s).env = s.env := by unfold markBusy; split <;> rfl
theorem markBusy_lcdst (s : State) : (markBusy s).lcdst = if s.lcdst = .ready then .busy else s.lcdst := by
  unfold markBusy; split <;> rfl

@[simp] theorem settleReady_rs (s : State) : (settleReady s).rs = s.rs := by unfold settleReady; split <;> rfl
@[simp] theorem settleReady_rw (s : State) : (settleReady s).rw = s.rw := by unfold settleReady; split <;> rfl
@[simp] theorem settleReady_e (s : State) : (settleReady s).e = s.e := by unfold settleReady; split <;> rfl
@[simp] theorem settleReady_dout (s : State) : (settleReady s).dout = s.dout := by unfold settleReady; split <;> rfl
@[simp] theorem settleReady_ddir (s : State) : (settleReady s).ddir = s.ddir := by unfold settleReady; split <;> rfl
@[simp] theorem settleReady_row (s : State) : (settleReady s).row = s.row := by unfold settleReady; split <;> rfl
@[simp] theorem settleReady_rowout (s : State) : (settleReady s).rowout = s.rowout := by unfold settleReady; split <;> rfl
@[simp] theorem settleReady_mask (s : State) : (settleReady s).mask = s.mask := by unfold settleReady; split <;> rfl
@[simp] theorem settleReady_cnt (s : State) : (settleReady s).cnt = s.cnt := by unfold settleReady; split <;> rfl
@[simp] theorem settleReady_seq (s : State) : (settleReady s).seq = s.seq := by unfold settleReady; split <;> rfl
@[simp] theorem settleReady_poll (s : State) : (settleReady s).poll = s.poll := by unfold settleReady; split <;> rfl
@[simp] theorem settleReady_result (s : State) : (settleReady s).result = s.result := by unfold settleReady; split <;> rfl
@[simp] theorem settleReady_trace (s : State) : (settleReady s).trace = s.trace := by unfold settleReady; split <;> rfl
@[simp] theorem settleReady_env (s : State) : (settleReady s).env = s.env := by unfold settleReady; split <;> rfl
theorem settleReady_lcdst (s : State) : (settleReady s).lcdst = if s.lcdst = .busy then .ready else s.lcdst := by
  unfold settleReady; split <;> rfl

end Sys2Proof.Machine
end

