-- ==== Sys2Proof/Laws/Loops.lean ====
section
/-! SUPPORT. One round of each loop of the pseudocode (spec/30_encoding.md R103), and the bus discipline of the lines an
operation pushes: what a proof about a whole loop or a whole run cites instead of unfolding the step. -/

namespace Sys2Proof.Machine

/-- One line, then a run. -/
theorem Reaches.line {s t u : State} {m : Micro} {rest : List Micro} (hl : s.env.lcd.latch = none)
    (hs : s.seq = m :: rest) (hm : lineTurn m { s with seq := rest } = .state t) (h : Reaches t u) : Reaches s u :=
  .head (step_line hl hs hm) h

/-- One poll of the wait loop (spec/41_lcd_driver.md R132, R133). -/
theorem poll_round {s : State} {b : Byte} {answers : List Byte} {after : List Micro}
    (hl : s.env.lcd.latch = none) (hs : s.seq = pollBody ++ after) (hrs : s.rs = false) (hrw : s.rw = true)
    (he : s.e = false) (hd : s.ddir = .input) (hp : s.env.lcdParty = .oracle (b :: answers)) :
    Reaches s
      { s with
        trace := s.trace ++ pollTrace b, poll := b, seq := if busyFlag b then s.seq else after,
        env :=
          { s.env with
            lcdParty := .oracle answers,
            lcd := { settledLcd s.env.lcdParty s.env.lcd with owed := busyFlag b } } } := by
  obtain ⟨rs, rw, e, dout, ddir, lcdst, row, rowout, mask, cnt, seq, poll, result, trace,
    ⟨program, lcdParty, keyParty, ⟨ac, ddram, busyN, busyLat, log, l, n, f, d, c, k, i, sh, latch, cols, settled, owed,
      slips⟩, keypad, dispatch, banner, draws⟩⟩ := s
  simp only at hl hs hrs hrw he hd hp
  subst hl hs hrs hrw he hd hp
  cases settled
  all_goals
    refine .line rfl rfl rfl (.line rfl rfl rfl (.head (step_readStatus rfl rfl) ?_))
    refine .line rfl rfl rfl (.line rfl rfl rfl (.line rfl rfl rfl ?_))
    simp [pollUntil, readStatus, takeSample, setControlLines, delayBus, State.emitBus, State.emit, lcdAnswer,
      latchAfter, writePulseEnds, State.pushSeq, State.setLcd, pollTrace, lcdHears, State.busView, BusView.breaks,
      BusView.next, BusView.asked, BusView.givesByte, settledLcd, lcdUndescribed]
    cases busyFlag b <;> simp [Config.rsInstr, Config.rwRead] <;> exact .refl _

/-- One pass of the confirmation loop (spec/42_keypad_scanner.md R165). -/
theorem confirm_round {s : State} {w : Byte} {answers : List Byte} {after : List Micro}
    (hl : s.env.lcd.latch = none) (hs : s.seq = .confirmLoop :: after) (hm : s.mask ≠ 0#5)
    (hc : s.cnt.toNat < 100) (hp : s.env.keyParty = .oracle (w :: answers)) :
    Reaches s
      { s with
        mask := columnMask w, cnt := s.cnt + 1#7, trace := s.trace ++ [.delayScan 1, .col (columnMask w)],
        env := { s.env with keyParty := .oracle answers } } := by
  obtain ⟨rs, rw, e, dout, ddir, lcdst, row, rowout, mask, cnt, seq, poll, result, trace,
    ⟨program, lcdParty, keyParty, lcd, keypad, dispatch, banner, draws⟩⟩ := s
  simp only at hl hs hm hc hp
  subst hs hp
  have hn : (nonzeroMask mask && decide (cnt.toNat < Config.confirmCap)) = true := by
    simp [nonzeroMask, Config.confirmCap, hm, hc]
  refine .line hl rfl rfl ?_
  simp only [confirmLoop, hn, if_true]
  refine .line hl rfl rfl (.line hl rfl rfl (.line (by exact hl) rfl rfl ?_))
  simp [sampleMask, sampleColumns, keyAnswer, State.emit, delayScan, State.pushSeq, bumpCount]
  exact .refl _

/-- One pass of the release-confirmation loop (spec/42_keypad_scanner.md R170). -/
theorem release_round {s : State} {w : Byte} {answers : List Byte} {after : List Micro}
    (hl : s.env.lcd.latch = none) (hs : s.seq = .releaseLoop :: after) (hc : s.cnt.toNat < 100)
    (hp : s.env.keyParty = .oracle (w :: answers)) :
    Reaches s
      { s with
        cnt := if columnMask w = 0#5 then s.cnt + 1#7 else 0#7,
        trace := s.trace ++ [.delayScan 1, .col (columnMask w)],
        env := { s.env with keyParty := .oracle answers } } := by
  obtain ⟨rs, rw, e, dout, ddir, lcdst, row, rowout, mask, cnt, seq, poll, result, trace,
    ⟨program, lcdParty, keyParty, lcd, keypad, dispatch, banner, draws⟩⟩ := s
  simp only at hl hs hc hp
  subst hs hp
  have hn : cnt.toNat < Config.releaseCount := by simpa [Config.releaseCount] using hc
  refine .line hl rfl rfl ?_
  simp only [releaseLoop, hn, if_true]
  refine .line hl rfl rfl (.line hl rfl rfl ?_)
  by_cases hz : columnMask w = 0#5 <;>
    simp [releaseSample, sampleColumns, keyAnswer, State.emit, delayScan, State.pushSeq, hz, nonzeroMask] <;>
    exact .refl _

/-! ### The lines an operation pushes keep the bus discipline -/

theorem linesOk_writeLines (rs : Bool) (v : Byte) {after : List Micro} (h : linesOk Phase.idle after = true) :
    linesOk Phase.idle (writeLines rs v ++ after) = true := by
  cases rs <;> exact h

theorem linesOk_waitReadyLines {after : List Micro} (h : linesOk Phase.idle after = true) :
    linesOk Phase.idle (waitReadyLines ++ after) = true := by
  exact h

/-- Every driver operation starts and ends between operations. -/
theorem linesOk_callLines (c : LcdCall) {after : List Micro} (h : linesOk Phase.idle after = true) :
    linesOk Phase.idle (callLines c ++ after) = true := by
  cases c <;> simp only [callLines, initializeLines, List.append_assoc]
  all_goals (repeat (first | exact h | apply linesOk_writeLines | apply linesOk_waitReadyLines))

/-- What the attached LCD took is not changed by the byte it acts on. -/
theorem receive_latch (p : LcdParty) (rs : Bool) (b : Byte) (d : LcdDevice) : (receive p rs b d).latch = d.latch := by
  cases p <;> simp only [receive, refReceive, otherReceive, lcdUndescribed] <;> split_ifs <;> rfl

/-- Only which LCD is attached matters to what it becomes, not what it will answer. -/
theorem receive_oracle (a b : List Byte) (rs : Bool) (v : Byte) (d : LcdDevice) :
    receive (.oracle a) rs v d = receive (.oracle b) rs v d := rfl

end Sys2Proof.Machine
end

