-- ==== Sys2Proof/Laws/PerInstr.lean ====
section
/-! SUPPORT. Statements made instruction by instruction, about the instruction as syntax. -/

namespace Sys2Proof.Laws

/-- A row of spec/opcode_table.json: its fixed bits are those of `mask`, and hold `value`. -/
structure TableRow.Row where
  mask  : BitVec 12
  value : BitVec 12
  deriving DecidableEq, Repr

/-- The row of each instruction, as the table numbers its bits. -/
def TableRow.row : Instr → TableRow.Row
  | .setControlLines _ _ _ => ⟨0xFF8#12, 0x000#12⟩
  | .driveData _ => ⟨0xF00#12, 0x100#12⟩
  | .readData => ⟨0xFFF#12, 0x200#12⟩
  | .releaseData => ⟨0xFFF#12, 0x300#12⟩
  | .delayBus _ => ⟨0xF00#12, 0x400#12⟩
  | .waitReady => ⟨0xFFF#12, 0x500#12⟩
  | .writeInstruction _ => ⟨0xF00#12, 0x600#12⟩
  | .writeData _ => ⟨0xF00#12, 0x700#12⟩
  | .initializeLcd => ⟨0xFFF#12, 0x800#12⟩
  | .writeLine _ _ => ⟨0xFFE#12, 0x900#12⟩
  | .writeChar _ => ⟨0xF00#12, 0xA00#12⟩
  | .clear => ⟨0xFFF#12, 0xB00#12⟩
  | .scanCycle => ⟨0xFFF#12, 0xC00#12⟩
  | .keyEvent _ => ⟨0xFE0#12, 0xD00#12⟩
  | .startup => ⟨0xFFF#12, 0xE00#12⟩
  | .reserved _ => ⟨0xF00#12, 0xF00#12⟩
  | .clearDisplay => ⟨0x0FF#12, 0x001#12⟩
  | .returnHome _ => ⟨0x0FE#12, 0x002#12⟩
  | .entryModeSet _ _ => ⟨0x0FC#12, 0x004#12⟩
  | .displayControl _ _ _ => ⟨0x0F8#12, 0x008#12⟩
  | .functionSet _ _ _ _ => ⟨0x0E0#12, 0x020#12⟩
  | .setDdramAddr _ => ⟨0x080#12, 0x080#12⟩
  | .status _ _ => ⟨0x000#12, 0x000#12⟩
  | .data _ => ⟨0x000#12, 0x000#12⟩

/-- The table's word in an encoding: the command word, or the byte on the data lines. -/
def TableRow.wordOf : Encoded → BitVec 12
  | .command c => c.word
  | .pins w => (w.extractLsb' 0 8).setWidth 12

/-- The encoding of a well-formed instruction has its row's fixed bits. The reserved row also stands for the words of
other rows whose fixed `arg` bits are not zero (its note in the table; spec/30_encoding.md R98). -/
def TableRow.Statement (i : Instr) : Prop :=
  i.wellFormed = true →
    match i with
    | .reserved w => isReservedWord w = true ∧ encode i = .command ⟨w, []⟩
    | _ => TableRow.wordOf (encode i) &&& (TableRow.row i).mask = (TableRow.row i).value

theorem TableRow.setControlLines (rs rw e : Bool) : TableRow.Statement (.setControlLines rs rw e) :=
  fun _ => by revert rs rw e; decide

theorem TableRow.driveData (b : Byte) : TableRow.Statement (.driveData b) := fun _ => by revert b; decide

theorem TableRow.readData : TableRow.Statement .readData := fun _ => by decide

theorem TableRow.releaseData : TableRow.Statement .releaseData := fun _ => by decide

theorem TableRow.delayBus (n : Byte) : TableRow.Statement (.delayBus n) := fun _ => by revert n; decide

theorem TableRow.waitReady : TableRow.Statement .waitReady := fun _ => by decide

theorem TableRow.writeInstruction (c : Byte) : TableRow.Statement (.writeInstruction c) := fun _ => by
  revert c; decide

theorem TableRow.writeData (b : Byte) : TableRow.Statement (.writeData b) := fun _ => by revert b; decide

theorem TableRow.initializeLcd : TableRow.Statement .initializeLcd := fun _ => by decide

theorem TableRow.writeLine (lineIndex : Nat) (text : List Byte) : TableRow.Statement (.writeLine lineIndex text) := by
  intro h
  have h2 : lineIndex ≤ 1 := by simp [Instr.wellFormed] at h; exact h.1
  show commandWord 0x9#4 (BitVec.ofNat 8 (lineIndex % 2)) &&& 0xFFE#12 = 0x900#12
  obtain rfl | rfl : lineIndex = 0 ∨ lineIndex = 1 := by omega
  · decide
  · decide

theorem TableRow.writeChar (c : Byte) : TableRow.Statement (.writeChar c) := fun _ => by revert c; decide

theorem TableRow.clear : TableRow.Statement .clear := fun _ => by decide

theorem TableRow.scanCycle : TableRow.Statement .scanCycle := fun _ => by decide

theorem TableRow.keyEvent (k : BitVec 5) : TableRow.Statement (.keyEvent k) := fun _ => by revert k; decide

theorem TableRow.startup : TableRow.Statement .startup := fun _ => by decide

theorem TableRow.reserved (w : BitVec 12) : TableRow.Statement (.reserved w) := fun h => ⟨h, rfl⟩

theorem TableRow.clearDisplay : TableRow.Statement .clearDisplay := fun _ => by decide

theorem TableRow.returnHome (x : Bool) : TableRow.Statement (.returnHome x) := fun _ => by revert x; decide

theorem TableRow.entryModeSet (i s : Bool) : TableRow.Statement (.entryModeSet i s) := fun _ => by
  revert i s; decide

theorem TableRow.displayControl (d c b : Bool) : TableRow.Statement (.displayControl d c b) := fun _ => by
  revert d c b; decide

theorem TableRow.functionSet (l n f : Bool) (x : BitVec 2) : TableRow.Statement (.functionSet l n f x) := fun _ => by
  revert l n f x; decide

theorem TableRow.setDdramAddr (a : BitVec 7) : TableRow.Statement (.setDdramAddr a) := fun _ => by
  revert a; decide

theorem TableRow.status (b : Bool) (a : BitVec 7) : TableRow.Statement (.status b a) := fun _ => by
  revert b a; decide

theorem TableRow.data (d : Byte) : TableRow.Statement (.data d) := fun _ => by revert d; decide

end Sys2Proof.Laws
end

