-- ==== Sys2Proof/Tests/Slice0.lean ====
section
/-! SUPPORT. Tests on small states. Expected values are read from the spec: the vector's name (spec/95_test_vectors.md)
or the rule stands beside each. After them, a witness for every statement that has hypotheses. -/

namespace Sys2Proof.Machine.Tests

/-! ### Helpers -/

/-- The next state of an outcome. -/
def nextOf : Host.Outcome State Fault Refusal → Option State
  | .next s => some s
  | .fault _ => none
  | .refused _ => none

/-- The refusal of an outcome. -/
def refusalOf : Host.Outcome State Fault Refusal → Option Refusal
  | .next _ => none
  | .fault _ => none
  | .refused r => some r

/-- After `initialize`, the LCD answering `lcd` and the keypad `keys` next. -/
def ready (lcd keys : List Byte) : State :=
  { State.reset with
    lcdst := .ready, env := { Environment.initial with lcdParty := .oracle lcd, keyParty := .oracle keys } }

/-- With the lines `seq` still to run. -/
def running (seq : List Micro) (s : State) : State := { s with seq := seq }

/-- With the attached LCD changed. -/
def withLcd (f : LcdDevice → LcdDevice) (s : State) : State := s.setLcd (f s.env.lcd)

/-- With lines of sixteen characters. -/
def sixteen (s : State) : State := withLcd (fun d => { d with cols := some 16 }) s

/-- With the bus at rest: no ready status owed. -/
def atRest (s : State) : State := withLcd (fun d => { d with owed := false }) s

/-- With an LCD that was given its function-set. -/
def begun (s : State) : State := withLcd (fun d => { d with log := [(false, 0x3C#8)] }) s

/-- With the reference LCD attached. -/
def withReference (s : State) : State := { s with env := { s.env with lcdParty := .reference } }

/-- With a host program. -/
def withProgram (p : List HostCommand) (s : State) : State := { s with env := { s.env with program := p } }

/-- A wait that polls once. -/
def once (b : Byte) : Wait := ⟨[], b⟩

/-! ### WellFormed refuses each ill-formed term -/

theorem test_wf_line_index : Instr.wellFormed (.writeLine 2 []) = false := by decide
theorem test_wf_text : Instr.wellFormed (.writeLine 0 [0x41#8, 0x00#8]) = false := by decide
theorem test_wf_key_code : Instr.wellFormed (.keyEvent 25#5) = false := by decide
theorem test_wf_reserved : Instr.wellFormed (.reserved 0x500#12) = false := by decide
theorem test_wf_boundaries :
    Instr.wellFormed (.writeLine 1 [0x41#8]) = true ∧ Instr.wellFormed (.keyEvent 24#5) = true
      ∧ Instr.wellFormed (.reserved 0x501#12) = true := by decide

/-! ### Decoding: words written out from R84 to R96 and the vectors -/

theorem test_decode_setControlLines :
    decodeCommand ⟨0b000000000101#12, []⟩ = .setControlLines true false true := by decide
theorem test_decode_driveData : decodeCommand ⟨0b000110100101#12, []⟩ = .driveData 0xA5#8 := by decide
theorem test_decode_readData : decodeCommand ⟨0b001000000000#12, []⟩ = .readData := by decide
theorem test_decode_releaseData : decodeCommand ⟨0b001100000000#12, []⟩ = .releaseData := by decide
theorem test_decode_delayBus : decodeCommand ⟨0b010011111111#12, []⟩ = .delayBus 255#8 := by decide
theorem test_decode_waitReady : decodeCommand ⟨0b010100000000#12, []⟩ = .waitReady := by decide
theorem test_decode_writeInstruction : decodeCommand ⟨0b011000011000#12, []⟩ = .writeInstruction 0x18#8 := by decide
theorem test_decode_writeData : decodeCommand ⟨0b011101101000#12, []⟩ = .writeData 0x68#8 := by decide
theorem test_decode_initializeLcd : decodeCommand ⟨0b100000000000#12, []⟩ = .initializeLcd := by decide
theorem test_decode_writeLine : decodeCommand ⟨0b100100000001#12, [0x41#8]⟩ = .writeLine 1 [0x41#8] := by decide
theorem test_decode_writeChar : decodeCommand ⟨0b101000110101#12, []⟩ = .writeChar 0x35#8 := by decide
theorem test_decode_clear : decodeCommand ⟨0b101100000000#12, []⟩ = .clear := by decide
theorem test_decode_scanCycle : decodeCommand ⟨0b110000000000#12, []⟩ = .scanCycle := by decide
theorem test_decode_keyEvent : decodeCommand ⟨0b110100011000#12, []⟩ = .keyEvent 24#5 := by decide
theorem test_decode_startup : decodeCommand ⟨0b111000000000#12, []⟩ = .startup := by decide
theorem test_decode_reserved : decodeCommand ⟨0b111100000000#12, []⟩ = .reserved 0xF00#12 := by decide
theorem test_decode_reserved_arguments :
    decodeCommand ⟨0x008#12, []⟩ = .reserved 0x008#12 ∧ decodeCommand ⟨0x902#12, []⟩ = .reserved 0x902#12
      ∧ decodeCommand ⟨0xD20#12, []⟩ = .reserved 0xD20#12 := by decide
theorem test_decode_clearDisplay : decodePins 0b00100000001#11 = .ok .clearDisplay := by decide
theorem test_decode_returnHome : decodePins 0b00100000011#11 = .ok (.returnHome true) := by decide
theorem test_decode_entryModeSet : decodePins 0b00100000110#11 = .ok (.entryModeSet true false) := by decide
theorem test_decode_displayControl : decodePins 0b00100001100#11 = .ok (.displayControl true false false) := by decide
theorem test_decode_functionSet : decodePins 0b00100111100#11 = .ok (.functionSet true true true 0#2) := by decide
theorem test_decode_setDdramAddr : decodePins 0b00111000000#11 = .ok (.setDdramAddr 0x40#7) := by decide
theorem test_decode_status : decodePins 0b01110000011#11 = .ok (.status true 3#7) := by decide
theorem test_decode_data : decodePins 0b10101101000#11 = .ok (.data 0x68#8) := by decide
theorem test_decode_rejects :
    decodePins 0b00000000001#11 = .rejected .enableLow ∧ decodePins 0b11100000000#11 = .rejected .dataRead
      ∧ decodePins 0b00100011000#11 = .rejected (.unassignedInstructionByte 0x18#8) := by decide
theorem test_table_words :
    decodeTableWord 16 0x800 = some .initializeLcd ∧ decodeTableWord 8 0x3C = some (.functionSet true true true 0#2)
      ∧ decodeTableWord 8 0x00 = some (.data 0x00#8) ∧ decodeTableWord 16 0x1000 = none := by decide

/-- R83: the layouts of R85 to R89 with the document's settings are the parameters of R8. -/
theorem test_layouts_give_the_parameters :
    functionSetByte true true true 0#2 = Config.opFunctionSet
      ∧ displayControlByte true false false = Config.opDisplayControl
      ∧ entryModeByte true false = Config.opEntryMode ∧ returnHomeByte false = Config.opReturnHome
      ∧ setDdramAddrByte 0#7 = Config.opSetDdram ∧ setDdramAddrByte 0x40#7 = 0xC0#8 := by decide

/-! ### One step of each instruction -/

/-- B1. -/
theorem test_setControlLines :
    (nextOf (exec (.setControlLines true false true) .reset)).map (fun t => (t.rs, t.rw, t.e, t.trace)) =
      some (true, false, true, [.ctl true false true]) := by decide

/-- R131, R71: where `E` falls while the block drives the bus in write mode, the device takes the byte. -/
theorem test_setControlLines_latches :
    (nextOf (exec (.setControlLines true false false)
        { State.reset with rs := true, e := true, ddir := .output, dout := 0x68#8 })).map (fun t => t.env.lcd.latch) =
      some (some 0b10101101000#11) := by decide

/-- B3. -/
theorem test_driveData :
    (nextOf (exec (.driveData 0xA5#8) .reset)).map (fun t => (t.dout, t.ddir, t.trace)) =
      some (0xA5#8, .output, [.drive 0xA5#8]) := by decide

/-- B7. -/
theorem test_readData :
    (nextOf (exec .readData { ready [0x83#8] [] with rw := true, e := true })).map
        (fun t => (t.result, t.ddir, t.trace)) = some (0x83#8, .input, [.sample 0x83#8]) := by decide

/-- B9: the reference LCD, not asked for its status, answers 0xFF. -/
theorem test_readData_reference :
    (nextOf (exec .readData
        { State.reset with env := { Environment.initial with lcdParty := .reference } })).map (·.result) =
      some 0xFF#8 := by decide

/-- B5. -/
theorem test_releaseData :
    (nextOf (exec .releaseData { State.reset with dout := 0xA5#8, ddir := .output })).map
        (fun t => (t.dout, t.ddir, t.trace)) = some (0x00#8, .input, [.release]) := by decide

/-- B12. -/
theorem test_delayBus :
    (nextOf (exec (.delayBus 255#8) .reset)).map (·.trace) = some [.delayBus 255] := by decide

/-- L1: accepted in every `LCDST`; its first line is `Ctl(0,1,0)`. -/
theorem test_waitReady :
    (nextOf (exec .waitReady .reset)).map (fun t => t.seq.head?) = some (some (.ctl false true false)) := by decide

/-- X6. -/
theorem test_waitReady_pins :
    refusalOf (exec .waitReady { State.reset with dout := 0xA5#8, ddir := .output }) = some .pinsNotIdle := by decide

/-- L14: a byte the block never sends itself is driven unchanged. -/
theorem test_writeInstruction :
    (nextOf (exec (.writeInstruction 0x18#8) (ready [] []))).map (fun t => t.seq.take 2) =
      some [.ctl false false false, .drive 0x18#8] := by decide

/-- L5. -/
theorem test_writeData :
    (nextOf (exec (.writeData 0x68#8) (ready [] []))).map (fun t => t.seq.take 2) =
      some [.ctl true false false, .drive 0x68#8] := by decide

/-- L10: the five bytes driven, in order. -/
theorem test_initializeLcd :
    (nextOf (exec .initializeLcd .reset)).map (fun t => t.seq.filterMap (fun m => match m with
        | .drive b => some b
        | _ => none)) = some [0x3C#8, 0x0C#8, 0x01#8, 0x06#8, 0x02#8] := by decide

/-- L6: the set-address byte of line 1. -/
theorem test_writeLine :
    (nextOf (exec (.writeLine 1 [0x41#8]) (ready [] []))).map (fun t => (t.seq.take 2, t.seq.getLast?)) =
      some ([.ctl false false false, .drive 0xC0#8], some (.writeText [0x41#8])) := by decide

/-- X3. -/
theorem test_writeLine_index : refusalOf (exec (.writeLine 2 []) .reset) = some .badLineIndex := by decide

/-- L13. -/
theorem test_writeChar :
    (nextOf (exec (.writeChar 0x35#8) (ready [] []))).map (fun t => t.seq.take 2) =
      some [.ctl true false false, .drive 0x35#8] := by decide

/-- X4. -/
theorem test_writeChar_uninitialized :
    refusalOf (exec (.writeChar 0x35#8) .reset) = some .lcdNotInitialized := by decide

/-- L7: the bytes driven, in order. -/
theorem test_clear :
    (nextOf (exec .clear (ready [] []))).map (fun t => t.seq.filterMap (fun m => match m with
        | .drive b => some b
        | _ => none)) = some [0x01#8, 0x02#8] := by decide

/-- X5. -/
theorem test_clear_pins : refusalOf (exec .clear { ready [] [] with rw := true }) = some .pinsNotIdle := by decide

/-- R173: accepted from reset; the first line activates the row. -/
theorem test_scanCycle :
    (nextOf (exec .scanCycle .reset)).map (fun t => t.seq.head?) = some (some .activateRow) := by decide

/-- The keyEvent table: 13 prints '6'. -/
theorem test_keyEvent :
    (nextOf (exec (.keyEvent 13#5) (ready [] []))).map (fun t => t.seq.take 2) =
      some [.ctl true false false, .drive 0x36#8] := by decide

/-- The keyEvent table: 25 is refused, and a no-op code is done even before `initialize`. -/
theorem test_keyEvent_edges :
    refusalOf (exec (.keyEvent 25#5) (ready [] [])) = some .badKeyCode
      ∧ nextOf (exec (.keyEvent 23#5) .reset) = some .reset := by decide

/-- Section 2.4: after `initialize` come the banner, the pause, `clear` and the scan loop. -/
theorem test_startup :
    (nextOf (exec .startup .reset)).map (fun t => t.seq.reverse.take 4) =
      some [.mainLoop, .call .clear, .delayScan 2000, .banner] := by decide

/-- X1. -/
theorem test_reserved : refusalOf (exec (.reserved 0xF00#12) .reset) = some .reservedCommand := by decide

/-- R71. -/
theorem test_clearDisplay :
    (nextOf (exec .clearDisplay (withLcd (fun d => { d with ac := 5#7, ddram := [(0, 0x35#8)], busyLat := 2 })
        (begun .reset)))).map (fun t => (t.env.lcd.ac, t.env.lcd.ddram, t.env.lcd.busyN)) =
      some (0#7, ([] : Memory), 2) := by decide

/-- R71: byte 0x03 also. -/
theorem test_returnHome :
    (nextOf (exec (.returnHome true) (withLcd (fun d => { d with ac := 5#7, ddram := [(0, 0x35#8)] }) (begun .reset)))).map
        (fun t => (t.env.lcd.ac, t.env.lcd.ddram, t.env.lcd.log)) =
      some (0#7, [(0, 0x35#8)], [(false, 0x3C#8), (false, 0x03#8)]) := by decide

/-- R86. -/
theorem test_entryModeSet :
    (nextOf (exec (.entryModeSet false true) (begun .reset))).map
        (fun t => (t.env.lcd.increment, t.env.lcd.shift, t.env.lcd.log)) =
      some (false, true, [(false, 0x3C#8), (false, 0x05#8)]) := by decide

/-- R71: the reference LCD only logs it. -/
theorem test_entryModeSet_reference :
    (nextOf (exec (.entryModeSet false true) (withReference .reset))).map
        (fun t => (t.env.lcd.increment, t.env.lcd.shift, t.env.lcd.log)) = some (true, false, [(false, 0x05#8)]) := by
  decide

/-- R87. -/
theorem test_displayControl :
    (nextOf (exec (.displayControl true false true) (begun .reset))).map
        (fun t => (t.env.lcd.displayOn, t.env.lcd.cursorOn, t.env.lcd.blinkOn, t.env.lcd.log)) =
      some (true, false, true, [(false, 0x3C#8), (false, 0x0D#8)]) := by decide

/-- R88: the document's settings; the two low bits are ignored. -/
theorem test_functionSet :
    (nextOf (exec (.functionSet true true true 3#2) .reset)).map
        (fun t => (t.env.lcd.eightBit, t.env.lcd.twoLines, t.env.lcd.largeFont, t.env.lcd.log)) =
      some (true, true, true, [(false, 0x3F#8)]) := by decide

/-- R99: of an LCD that is not RefLCD nothing is said after other settings. -/
theorem test_functionSet_other :
    (nextOf (exec (.functionSet true false true 3#2) .reset)).map
        (fun t => (lcdDescribed t.env.lcd, t.env.lcd.log)) = some (false, [(false, 0x37#8)]) := by decide

/-- S6: line 1 starts at address 0x40. -/
theorem test_setDdramAddr :
    (nextOf (exec (.setDdramAddr 0x40#7) (begun .reset))).map (fun t => (t.env.lcd.ac, t.env.lcd.log)) =
      some (0x40#7, [(false, 0x3C#8), (false, 0xC0#8)]) := by decide

/-- R90, R132. -/
theorem test_status :
    (nextOf (exec (.status true 3#7) { State.reset with rw := true, e := true })).map (fun t => (t.poll, t.trace)) =
      some (0x83#8, [.sample 0x83#8]) := by decide

/-- L5: the device's side. -/
theorem test_data :
    (nextOf (exec (.data 0x68#8) (sixteen (begun .reset)))).map
        (fun t => (t.env.lcd.ddram, t.env.lcd.ac, t.env.lcd.log)) =
      some ([(0, 0x68#8)], 1#7, [(false, 0x3C#8), (true, 0x68#8)]) := by decide

/-- R264, U12: of an LCD that is not RefLCD nothing is said where its first byte is no function-set. -/
theorem test_function_set_first :
    (nextOf (exec (.data 0x68#8) (sixteen .reset))).map (fun t => (lcdDescribed t.env.lcd, t.env.lcd.log)) =
        some (false, [(true, 0x68#8)])
      ∧ (nextOf (exec (.functionSet true true true 0#2) .reset)).map (fun t => lcdDescribed t.env.lcd) = some true := by
  decide

/-- R72: the reference LCD's pointer wraps modulo 128, and a blank byte is not listed. -/
theorem test_data_wraps :
    (nextOf (exec (.data 0x20#8)
        (withReference (withLcd (fun d => { d with ac := 127#7, ddram := [(127, 0x41#8)] }) .reset)))).map
        (fun t => (t.env.lcd.ddram, t.env.lcd.ac)) = some ([], 0#7) := by decide

/-- R52, U1: past the sixteen positions of line 1 nothing is said; at its last position the cell is known. -/
theorem test_data_at_the_end_of_a_line :
    (nextOf (exec (.data 0x41#8) (sixteen (withLcd (fun d => { d with ac := 0x4F#7 }) (begun .reset))))).map
        (fun t => t.env.lcd.ddram) = some [(0x4F, 0x41#8)]
      ∧ nextAddress { LcdDevice.initial with ac := 0x4E#7, cols := some 16 } = 0x4F#7
      ∧ nextAddress { LcdDevice.initial with ac := 0x4F#7, cols := some 16, increment := false } = 0x4E#7 := by
  decide

/-! ### The bus discipline, event by event -/

/-- U6: a drive in read mode, and read mode while the block drives; RefLCD keeps no record. -/
theorem test_contention :
    (nextOf (exec (.driveData 0x00#8) (begun (atRest { State.reset with rw := true, e := true })))).map
        (fun t => (t.env.lcd.slips, lcdDescribed t.env.lcd)) = some (1, false)
      ∧ (nextOf (exec (.setControlLines false true false) (atRest { State.reset with ddir := .output }))).map
        (fun t => t.env.lcd.slips) = some 1
      ∧ (nextOf (exec (.driveData 0x00#8) (withReference { State.reset with rw := true, e := true }))).map
        (fun t => t.env.lcd) = some LcdDevice.initial := by decide

/-- U3, U4, R25, R82: `E` raised too early, with a ready status owed, on an undriven bus, with `RS` changing. -/
theorem test_bad_pulses :
    [{ BusView.idle with out := true, waited := false }, { BusView.idle with out := true, owed := true },
      BusView.idle, { BusView.idle with rs := true, out := true }].map (·.breaks (.ctl false false true)) =
        [true, true, true, true]
      ∧ { BusView.idle with out := true }.breaks (.ctl false false true) = false := by decide

/-- R113: a release of the neutral bus inside a read pulse, and right after its fall, changes nothing but the trace;
one that ends driving too early breaks the discipline. -/
theorem witness_ReleaseDataNeutralisesTheBus :
    let pulse := begun (withLcd (fun d => { d with settled := false }) { State.reset with rw := true, e := true })
    pulse.dout = 0x00#8 ∧ pulse.ddir = .input
      ∧ nextOf (exec .releaseData pulse) = some { pulse with trace := [.release] }
      ∧ nextOf (exec .releaseData { pulse with e := false }) = some { pulse with e := false, trace := [.release] }
      ∧ (nextOf (exec .releaseData { pulse with rw := false, e := false, ddir := .output })).map
        (fun t => t.env.lcd.slips) = some 1 := by decide

/-- R110: a call that changes no line breaks nothing, whatever the lines are. -/
theorem test_ctl_unchanged :
    ([false, true].all fun out => [false, true].all fun waited => [false, true].all fun owed =>
      !({ BusView.idle with rw := true, e := true, out := out, waited := waited, owed := owed }).breaks
        (.ctl false true true)) = true := by decide

/-- R263: a status read with bit 7 clear ends what is owed, one outside a read cycle does not; one with bit 7 set owes
a ready status again (U4). -/
theorem test_ready_status :
    (nextOf (exec .readData { ready [0x03#8] [] with rw := true, e := true })).map (fun t => t.env.lcd.owed) =
        some false
      ∧ (nextOf (exec .readData (ready [0x03#8] []))).map (fun t => t.env.lcd.owed) = some true
      ∧ (nextOf (exec .readData (atRest { ready [0x83#8] [] with rw := true, e := true }))).map
        (fun t => t.env.lcd.owed) = some true := by decide

/-! ### Operand forms and predicates -/

/-- Section 2.3: raw words 0xE4, 0xFF, 0xE0, 0x1F. -/
theorem test_columnMask :
    columnMask 0xE4#8 = 0b00100#5 ∧ columnMask 0xFF#8 = 0b11111#5 ∧ columnMask 0xE0#8 = 0#5
      ∧ columnMask 0x1F#8 = 0b11111#5 := by decide

/-- Section 2.3: exactly five masks are accepted. -/
theorem test_singleMask :
    ((List.range 32).filter (fun n => singleMask (BitVec.ofNat 5 n))) = [1, 2, 4, 8, 16] := by decide

/-- S2. -/
theorem test_keyCode : keyCode 0 4 = 4 ∧ keyCode 1 0 = 5 ∧ keyCode 2 3 = 13 ∧ keyCode 4 4 = 24 := by decide

/-- R172. -/
theorem test_nextRow : [0, 1, 2, 3, 4].map nextRow = [1, 2, 3, 4, 0] := by decide

/-- K8: a key in another row is not seen; in its own row it is (R74). -/
theorem test_matrixColumns :
    matrixColumns (1#25 <<< 18) (onehot5 0) = 0#5 ∧ matrixColumns (1#25 <<< 18) (onehot5 3) = 0b01000#5 := by decide

/-- One line of the scanner: `Key(6)` from row 1 and mask `0b00010` (K6), then the collaborator's program. -/
theorem test_accept :
    (nextOf (step (running [.accept] { ready [] [] with row := 1, mask := 0b00010#5 }))).map
        (fun t => (t.trace, t.seq)) =
      some ([.key 6], [.call (.writeChar 0x31#8), .clearCount, .releaseLoop]) := by decide

/-- X7: inside the cycle the collaborator's call is refused. -/
theorem test_call_refused :
    refusalOf (step (running [.call (.writeChar 0x30#8)] .reset)) = some .lcdNotInitialized := by decide

/-- R71, R99, vector L14: of the two LCDs only the reference LCD is known after the byte 0x18. -/
theorem test_unassigned_byte :
    (nextOf (step (withLcd (fun d => { d with ac := 5#7, latch := some (pinWord false false true 0x18#8) })
        (withReference .reset)))).map (fun t => (t.env.lcd.ac, t.env.lcd.log)) = some (5#7, [(false, 0x18#8)])
      ∧ (nextOf (step (withLcd (fun d => { d with latch := some (pinWord false false true 0x18#8) }) .reset))).map
        (fun t => (lcdDescribed t.env.lcd, t.env.lcd.log)) = some (false, [(false, 0x18#8)]) := by decide

/-- R262: after the fall of `E` in a read cycle a delay comes before the lines change again, and before a drive. -/
theorem test_watch_read_cycle :
    (watch (waitTrace [0x00#8])).ok = true
      ∧ (watch ((waitTrace [0x00#8]).take 6 ++ [.ctl false false false])).ok = false
      ∧ (watch ((waitTrace [0x00#8]).take 6 ++ [.drive 0x00#8])).ok = false := by decide

/-- R263: a second pulse on the driven bus, with no ready status in between. -/
theorem test_watch_second_pulse :
    (watch ((writeTrace true 0x68#8).take 7)).ok = true
      ∧ (watch ((writeTrace true 0x68#8).take 7 ++ [.ctl true false true])).ok = false := by decide

/-! ### Witnesses: concrete states and operands that meet the hypotheses of the statements -/

theorem witness_DecodeReadsBackEveryEncoding : Instr.wellFormed (.writeLine 1 [0xFF#8]) = true := by decide

theorem witness_StepRunsTheHostsNextCommand :
    (withProgram [⟨0x005#12, []⟩] State.reset).env.lcd.latch = none
      ∧ (withProgram [⟨0x005#12, []⟩] State.reset).seq = []
      ∧ (withProgram [⟨0x005#12, []⟩] State.reset).env.program = [⟨0x005#12, []⟩]
      ∧ State.reset.env.lcd.latch = none ∧ State.reset.seq = [] ∧ State.reset.env.program = [] := by decide

theorem witness_StepRunsTheByteTheLcdTook :
    (withLcd (fun d => { d with latch := some 0b10101101000#11 }) State.reset).env.lcd.latch =
        some 0b10101101000#11
      ∧ decodePins 0b10101101000#11 = .ok (.data 0x68#8) := by decide

theorem witness_StepRunsTheStatusByteRead :
    (running [.readStatus, .pollUntil] (ready [0x83#8] [])).env.lcd.latch = none
      ∧ (running [.readStatus, .pollUntil] (ready [0x83#8] [])).seq = .readStatus :: [.pollUntil]
      ∧ (running [.readStatus, .pollUntil] (ready [0x83#8] [])).env.lcdParty = .oracle (0x83#8 :: []) := by decide

theorem witness_ReadDataSamplesOneByte : (ready [0x83#8] []).env.lcdParty = .oracle (0x83#8 :: []) := by decide

/-- Also for `BusyAnswersKeepTheWaitPolling`'s answers: two busy polls, then a ready one (L2). -/
theorem witness_WaitReadyPollsUntilReady :
    (ready [0x80#8, 0x80#8, 0x00#8] []).pinsIdle = true
      ∧ (ready [0x80#8, 0x80#8, 0x00#8] []).env.lcd.latch = none
      ∧ (Wait.mk [0x80#8, 0x80#8] 0x00#8).ok = true
      ∧ (ready [0x80#8, 0x80#8, 0x00#8] []).env.lcdParty =
          .oracle ((Wait.mk [0x80#8, 0x80#8] 0x00#8).answers ++ []) := by decide

/-- L4; the statement takes every byte. -/
theorem witness_WriteInstructionWritesAndWaits :
    (ready [0x80#8, 0x00#8] []).pinsIdle = true ∧ (ready [0x80#8, 0x00#8] []).lcdst ≠ .uninitialized
      ∧ (ready [0x80#8, 0x00#8] []).env.lcd.latch = none ∧ (Wait.mk [0x80#8] 0x00#8).ok = true
      ∧ (ready [0x80#8, 0x00#8] []).env.lcdParty = .oracle ((Wait.mk [0x80#8] 0x00#8).answers ++ []) := by decide

theorem witness_WriteDataAndWriteCharWriteAndWait :
    (ready [0x7F#8] []).pinsIdle = true ∧ (ready [0x7F#8] []).lcdst ≠ .uninitialized
      ∧ (ready [0x7F#8] []).env.lcd.latch = none ∧ (once 0x7F#8).ok = true
      ∧ (ready [0x7F#8] []).env.lcdParty = .oracle ((once 0x7F#8).answers ++ []) := by decide

/-- The five writes of `initialize`, each waited for with one poll (L10). -/
def initWrites : List ByteWrite :=
  [⟨false, 0x3C#8, once 0#8⟩, ⟨false, 0x0C#8, once 0#8⟩, ⟨false, 0x01#8, once 0#8⟩, ⟨false, 0x06#8, once 0#8⟩,
   ⟨false, 0x02#8, once 0#8⟩]

/-- The two writes of `clear` (L8). -/
def clearWrites : List ByteWrite := [⟨false, 0x01#8, once 0#8⟩, ⟨false, 0x02#8, once 0#8⟩]

/-- Reset, with status bytes to answer. -/
def resetWith (lcd : List Byte) : State :=
  { State.reset with env := { Environment.initial with lcdParty := .oracle lcd, banner := some [(1, [0x41#8])] } }

theorem witness_InitializeRunsTheFixedSequence :
    (resetWith (List.replicate 6 0#8)).pinsIdle = true ∧ (resetWith (List.replicate 6 0#8)).env.lcd.latch = none
      ∧ (once 0#8).ok = true ∧ (∀ w ∈ initWrites, w.wait.ok = true)
      ∧ initWrites.map ByteWrite.sent =
          [(false, Config.opFunctionSet), (false, Config.opDisplayControl), (false, Config.opClearDisplay),
            (false, Config.opEntryMode), (false, Config.opReturnHome)]
      ∧ (resetWith (List.replicate 6 0#8)).env.lcdParty =
          .oracle ((once 0#8).answers ++ answersOf initWrites ++ []) := by decide

/-- Line 0 with no character (L9), and line 1 with one (L6). -/
theorem witness_WriteLineSendsAddressThenText :
    (ready [0#8] []).pinsIdle = true ∧ (ready [0#8] []).lcdst ≠ .uninitialized
      ∧ (ready [0#8] []).env.lcd.latch = none ∧ textOk [] = true
      ∧ (∀ w ∈ [ByteWrite.mk false 0x80#8 (once 0#8)], w.wait.ok = true)
      ∧ [ByteWrite.mk false 0x80#8 (once 0#8)].map ByteWrite.sent =
          (false, Config.opSetDdram ||| (if (0 : Fin 2) = 0 then 0x00#8 else 0x40#8))
            :: ([] : List Byte).map (fun c => (true, Config.charmap c))
      ∧ (ready [0#8] []).env.lcdParty = .oracle (answersOf [ByteWrite.mk false 0x80#8 (once 0#8)] ++ [])
      ∧ textOk [0x41#8] = true
      ∧ [ByteWrite.mk false 0xC0#8 (once 0#8), ByteWrite.mk true 0x41#8 (once 0#8)].map ByteWrite.sent =
          (false, Config.opSetDdram ||| (if (1 : Fin 2) = 0 then 0x00#8 else 0x40#8))
            :: [0x41#8].map (fun c => (true, Config.charmap c))
      ∧ (ready [0#8, 0#8] []).env.lcdParty =
          .oracle (answersOf [ByteWrite.mk false 0xC0#8 (once 0#8), ByteWrite.mk true 0x41#8 (once 0#8)] ++ []) := by
  decide

/-- The display clause: `hi` on line 1 of sixteen characters (section 2.2), the bus at rest. -/
theorem witness_WriteLineSendsAddressThenText_display :
    let s := begun (atRest (sixteen (ready [0#8, 0#8, 0#8] [])))
    let ws := [ByteWrite.mk false 0xC0#8 (once 0#8), ⟨true, 0x68#8, once 0#8⟩, ⟨true, 0x69#8, once 0#8⟩]
    fitsLine s.env.lcd [0x68#8, 0x69#8] ∧ s.env.lcd.settled = true ∧ s.env.lcd.owed = false
      ∧ lcdDescribed s.env.lcd = true ∧ s.env.lcd.increment = true ∧ Memory.wf s.env.lcd.ddram = true
      ∧ (afterWrites ws [] s).env.lcd.ddram = [(0x40, 0x68#8), (0x41, 0x69#8)] := by
  refine ⟨⟨?_, ?_⟩, ?_⟩ <;> decide

/-- Also for `KeyEvent24Clears`: the default table. -/
theorem witness_ClearSendsClearThenHome :
    (ready [0#8, 0#8] []).pinsIdle = true ∧ (ready [0#8, 0#8] []).lcdst ≠ .uninitialized
      ∧ (ready [0#8, 0#8] []).env.lcd.latch = none ∧ (∀ w ∈ clearWrites, w.wait.ok = true)
      ∧ clearWrites.map ByteWrite.sent = [(false, Config.opClearDisplay), (false, Config.opReturnHome)]
      ∧ (ready [0#8, 0#8] []).env.lcdParty = .oracle (answersOf clearWrites ++ []) := by decide

theorem witness_KeyEvent24Clears :
    (ready [0#8, 0#8] []).env.dispatch = defaultDispatch ∧ (ready [0#8, 0#8] []).pinsIdle = true
      ∧ (ready [0#8, 0#8] []).lcdst ≠ .uninitialized ∧ (ready [0#8, 0#8] []).env.lcd.latch = none
      ∧ (∀ w ∈ clearWrites, w.wait.ok = true)
      ∧ clearWrites.map ByteWrite.sent = [(false, Config.opClearDisplay), (false, Config.opReturnHome)]
      ∧ (ready [0#8, 0#8] []).env.lcdParty = .oracle (answersOf clearWrites ++ []) := by decide

theorem witness_DriverRefusesPinsNotIdle :
    { State.reset with ddir := BusDir.output }.pinsIdle = false ∧ { State.reset with e := true }.pinsIdle = false
      ∧ { State.reset with e := true }.env.dispatch = defaultDispatch := by decide

theorem witness_DriverRefusesUninitialized :
    State.reset.pinsIdle = true ∧ State.reset.lcdst = .uninitialized ∧ State.reset.env.dispatch = defaultDispatch := by
  decide

theorem witness_OperandsOutsideTheirDomainAreRefused : 2 ≤ 2 ∧ 24 < (25#5).toNat ∧ 24 < (31#5).toNat := by decide

theorem witness_BusyAnswersKeepTheWaitPolling :
    { running (pollBody ++ []) (ready [0x80#8, 0xFF#8, 0x00#8] []) with rw := true }.env.lcd.latch = none
      ∧ { running (pollBody ++ []) (ready [0x80#8, 0xFF#8, 0x00#8] []) with rw := true }.seq = pollBody ++ []
      ∧ [0x80#8, 0xFF#8].all busyFlag = true
      ∧ { running (pollBody ++ []) (ready [0x80#8, 0xFF#8, 0x00#8] []) with rw := true }.rs = false
      ∧ { running (pollBody ++ []) (ready [0x80#8, 0xFF#8, 0x00#8] []) with rw := true }.rw = true
      ∧ { running (pollBody ++ []) (ready [0x80#8, 0xFF#8, 0x00#8] []) with rw := true }.e = false
      ∧ { running (pollBody ++ []) (ready [0x80#8, 0xFF#8, 0x00#8] []) with rw := true }.ddir = .input
      ∧ { running (pollBody ++ []) (ready [0x80#8, 0xFF#8, 0x00#8] []) with rw := true }.env.lcdParty =
          .oracle ([0x80#8, 0xFF#8] ++ [0x00#8]) := by decide

/-- The reference LCD, each write costing three polls (L4). -/
def referenceReady : State :=
  { State.reset with
    lcdst := .ready,
    env := { Environment.initial with lcdParty := .reference, lcd := { LcdDevice.initial with busyLat := 3 } } }

theorem witness_ReferenceLcdIsBusyForItsLatency :
    referenceReady.pinsIdle = true ∧ referenceReady.lcdst = .ready ∧ referenceReady.env.lcd.latch = none
      ∧ referenceReady.env.lcdParty = .reference := by decide

/-- Inside a write cycle, with `E` high and the delay passed: the monitor and the lines still to run agree. -/
def midWrite : State :=
  { State.reset with
    rs := true, e := true, ddir := .output, dout := 0x68#8,
    seq := [.ctl true false false, .delayBus 1, .release] ++ waitReadyLines,
    trace := (writeTrace true 0x68#8).take 5 }

theorem witness_EveryStepKeepsTheBusDiscipline :
    Polite midWrite ∧ nextOf (step midWrite) ≠ none := by
  refine ⟨⟨⟨⟨⟨true, false, true, true, true, false⟩, false⟩, ?_, ?_⟩, ?_, ?_⟩, ?_⟩ <;> decide

theorem witness_DriverOnlyRunsNeverViolateTheBus :
    Environment.program (withProgram [⟨0x800#12, []⟩, ⟨0xC00#12, []⟩] State.reset).env =
        [⟨0x800#12, []⟩, ⟨0xC00#12, []⟩]
      ∧ (withProgram [⟨0x800#12, []⟩, ⟨0xC00#12, []⟩] State.reset).env.program.all isDriverCommand = true
      ∧ (withProgram [⟨0x800#12, []⟩, ⟨0xC00#12, []⟩] State.reset).env.lcd.latch = none
      ∧ Reaches { State.reset with env := (withProgram [⟨0x800#12, []⟩, ⟨0xC00#12, []⟩] State.reset).env }
          { State.reset with env := (withProgram [⟨0x800#12, []⟩, ⟨0xC00#12, []⟩] State.reset).env } :=
  ⟨by decide, by decide, by decide, 0, rfl⟩

/-- An event added, and none added. -/
theorem witness_EveryStepAddsAtMostOneEvent :
    (nextOf (step (running [.release] .reset))).map (·.trace) = some [.release]
      ∧ (nextOf (step (running [.clearCount] .reset))).map (·.trace) = some [] := by decide

theorem witness_SamplesAreTakenAsInput :
    (nextOf (step (running [.readStatus] { ready [0x83#8] [] with ddir := .output }))).map (·.trace) =
      some ((ready [] []).trace ++ [.sample 0x83#8]) := by decide

theorem witness_OnlyInitializeLeavesUninitialized :
    (running [.markReady] State.reset).lcdst = .uninitialized
      ∧ (nextOf (step (running [.markReady] .reset))).map (fun t => decide (t.lcdst ≠ .uninitialized)) =
          some true := by decide

/-- The three lines, in the last row. -/
theorem witness_RowStepsDriveOneRow :
    (running [.activateRow] { State.reset with row := 4 }).env.lcd.latch = none
      ∧ (running [.activateRow] { State.reset with row := 4 }).seq = .activateRow :: []
      ∧ (running [.deactivateRow] { State.reset with row := 4 }).env.lcd.latch = none
      ∧ (running [.deactivateRow] { State.reset with row := 4 }).seq = .deactivateRow :: []
      ∧ (running [.advanceRow] { State.reset with row := 4 }).env.lcd.latch = none
      ∧ (running [.advanceRow] { State.reset with row := 4 }).seq = .advanceRow :: [] := by decide

theorem witness_ScanOfAnEmptyRow :
    (ready [] [0xE0#8]).env.lcd.latch = none ∧ columnMask 0xE0#8 = 0#5
      ∧ (ready [] [0xE0#8]).env.keyParty = .oracle (0xE0#8 :: []) := by decide

/-- K3: the signal disappears in the 100th re-sample. -/
theorem witness_ScanOfNoiseRaisesNoKey :
    (ready [] (0x08#8 :: List.replicate 99 0x08#8 ++ 0x00#8 :: [])).env.lcd.latch = none
      ∧ columnMask 0x08#8 ≠ 0#5 ∧ (∀ w ∈ List.replicate 99 0x08#8, columnMask w ≠ 0#5)
      ∧ (List.replicate 99 0x08#8).length < 100 ∧ columnMask 0x00#8 = 0#5
      ∧ (ready [] (0x08#8 :: List.replicate 99 0x08#8 ++ 0x00#8 :: [])).env.keyParty =
          .oracle (0x08#8 :: List.replicate 99 0x08#8 ++ 0x00#8 :: []) := by
  refine ⟨rfl, by decide, fun w hw => ?_, by simp, by decide, rfl⟩
  rw [List.eq_of_mem_replicate hw]; decide

/-- K4. -/
theorem witness_ScanOfAHeldChordRaisesNoKey :
    (ready [] (0x03#8 :: List.replicate 99 0x03#8 ++ 0x03#8 :: [])).env.lcd.latch = none
      ∧ columnMask 0x03#8 ≠ 0#5 ∧ (∀ w ∈ List.replicate 99 0x03#8, columnMask w ≠ 0#5)
      ∧ (List.replicate 99 0x03#8).length = 99 ∧ singleMask (columnMask 0x03#8) = false
      ∧ (ready [] (0x03#8 :: List.replicate 99 0x03#8 ++ 0x03#8 :: [])).env.keyParty =
          .oracle (0x03#8 :: List.replicate 99 0x03#8 ++ 0x03#8 :: []) := by
  refine ⟨rfl, by decide, fun w hw => ?_, by simp, by decide, rfl⟩
  rw [List.eq_of_mem_replicate hw]; decide

/-- K5: a chord that collapses to the key of column 4. -/
theorem witness_ScanOfAHeldKeyDispatchesItsCode :
    (ready [] (0x11#8 :: List.replicate 99 0x11#8 ++ 0x10#8 :: [])).env.lcd.latch = none
      ∧ columnMask 0x11#8 ≠ 0#5 ∧ (∀ w ∈ List.replicate 99 0x11#8, columnMask w ≠ 0#5)
      ∧ (List.replicate 99 0x11#8).length = 99 ∧ columnMask 0x10#8 = 1#5 <<< (4 : Fin 5).val
      ∧ (ready [] (0x11#8 :: List.replicate 99 0x11#8 ++ 0x10#8 :: [])).env.keyParty =
          .oracle (0x11#8 :: List.replicate 99 0x11#8 ++ 0x10#8 :: []) := by
  refine ⟨rfl, by decide, fun w hw => ?_, by simp, by decide, rfl⟩
  rw [List.eq_of_mem_replicate hw]; decide

/-- The keys of K10: column 4 held for 101 samples, then `after`. -/
def heldKeys (after : List Byte) : List Byte := 0x10#8 :: List.replicate 99 0x10#8 ++ 0x10#8 :: after

/-- K10's end: a bounce, then 100 quiet samples. -/
def quietKeys : List Byte := [0x00#8, 0x01#8] ++ List.replicate 100 0x00#8 ++ []

/-- The whole cycle: key 24 in row 4, whose program clears (K10), and key 4 in row 0, which the table does not list,
with the LCD not initialised. -/
theorem witness_ScanOfAHeldKeyDispatchesItsCode_whole :
    (∀ c ∈ dispatchProgram defaultDispatch (5 * (4 : Fin 5).val + (4 : Fin 5).val), isWriteCall c = true)
      ∧ { ready [0#8, 0#8] (heldKeys quietKeys) with row := 4 }.pinsIdle = true
      ∧ { ready [0#8, 0#8] (heldKeys quietKeys) with row := 4 }.lcdst ≠ .uninitialized
      ∧ clearWrites.map ByteWrite.sent =
          (dispatchProgram defaultDispatch (5 * (4 : Fin 5).val + (4 : Fin 5).val)).flatMap sends
      ∧ (∀ w ∈ clearWrites, w.wait.ok = true)
      ∧ { ready [0#8, 0#8] (heldKeys quietKeys) with row := 4 }.env.lcdParty = .oracle (answersOf clearWrites ++ [])
      ∧ { ready [0#8, 0#8] (heldKeys quietKeys) with row := 4 }.env.keyParty = .oracle (heldKeys quietKeys)
      ∧ (∀ n ≤ [0x00#8, 0x01#8].length, quietCount (([0x00#8, 0x01#8].take n).map columnMask) 0 < 100)
      ∧ quietCount ([0x00#8, 0x01#8].map columnMask) 0 = 0 ∧ (List.replicate 100 0x00#8).length = 100
      ∧ (∀ w ∈ List.replicate 100 0x00#8, columnMask w = 0#5)
      ∧ dispatchProgram defaultDispatch (5 * (0 : Fin 5).val + (4 : Fin 5).val) = []
      ∧ ([] : List ByteWrite).map ByteWrite.sent =
          (dispatchProgram defaultDispatch (5 * (0 : Fin 5).val + (4 : Fin 5).val)).flatMap sends
      ∧ State.reset.lcdst = .uninitialized ∧ State.reset.env.lcdParty = .oracle (answersOf [] ++ []) := by
  refine ⟨by decide, by decide, by decide, by decide, by decide, by decide, rfl, by decide, by decide, by simp,
    fun w hw => ?_, by decide, by decide, rfl, rfl⟩
  rw [List.eq_of_mem_replicate hw]; decide

/-- The lines from the release-confirmation loop to the end of the cycle. -/
def releasing (keys : List Byte) : State :=
  running ([.clearCount, .releaseLoop, .deactivateRow, .advanceRow, .scanDone] ++ []) (ready [] keys)

/-- A bounce, then 100 quiet samples (K7's end). -/
theorem witness_ReleaseLoopEndsAfterHundredQuietSamples :
    (releasing ([0x00#8, 0x01#8] ++ List.replicate 100 0x00#8 ++ [])).env.lcd.latch = none
      ∧ (releasing ([0x00#8, 0x01#8] ++ List.replicate 100 0x00#8 ++ [])).seq =
          [.clearCount, .releaseLoop, .deactivateRow, .advanceRow, .scanDone] ++ []
      ∧ (∀ n ≤ [0x00#8, 0x01#8].length, quietCount (([0x00#8, 0x01#8].take n).map columnMask) 0 < 100)
      ∧ quietCount ([0x00#8, 0x01#8].map columnMask) 0 = 0 ∧ (List.replicate 100 0x00#8).length = 100
      ∧ (∀ w ∈ List.replicate 100 0x00#8, columnMask w = 0#5)
      ∧ (releasing ([0x00#8, 0x01#8] ++ List.replicate 100 0x00#8 ++ [])).env.keyParty =
          .oracle ([0x00#8, 0x01#8] ++ List.replicate 100 0x00#8 ++ []) := by
  refine ⟨rfl, rfl, by decide, by decide, by simp, fun w hw => ?_, rfl⟩
  rw [List.eq_of_mem_replicate hw]; decide

theorem witness_HeldKeyKeepsTheReleaseLoopGoing :
    (running [.releaseLoop] (ready [] [0x01#8, 0x00#8])).env.lcd.latch = none
      ∧ (running [.releaseLoop] (ready [] [0x01#8, 0x00#8])).seq = .releaseLoop :: []
      ∧ (running [.releaseLoop] (ready [] [0x01#8, 0x00#8])).cnt = 0#7
      ∧ (∀ n ≤ [0x01#8, 0x00#8].length, quietCount (([0x01#8, 0x00#8].take n).map columnMask) 0 < 100)
      ∧ (running [.releaseLoop] (ready [] [0x01#8, 0x00#8])).env.keyParty =
          .oracle ([0x01#8, 0x00#8] ++ []) := by decide

theorem witness_KeyEventsComeFromSingleBitMasks :
    (nextOf (step (running [.accept] { ready [] [] with row := 4, mask := 0b10000#5 }))).map (·.trace) =
      some ((ready [] []).trace ++ [.key 24]) := by decide

theorem witness_EveryStepKeepsTheRowWordLegal :
    legalRowWord State.reset.rowout = true ∧ legalRowWord 0b10000#5 = true
      ∧ (nextOf (step (running [.activateRow] { State.reset with row := 4 }))).map (·.rowout) =
          some 0b10000#5 := by decide

theorem witness_OnlyAdvanceRowMovesTheRow :
    (nextOf (step (running [.advanceRow] { State.reset with row := 4 }))).map (·.row) = some 0 := by decide

theorem witness_FiveEmptyCyclesVisitEveryRow :
    (withProgram (List.replicate 5 ⟨0xC00#12, []⟩) (ready [] (List.replicate 5 0xE0#8 ++ []))).env.lcd.latch = none
      ∧ (withProgram (List.replicate 5 ⟨0xC00#12, []⟩) (ready [] (List.replicate 5 0xE0#8 ++ []))).row = 0
      ∧ (withProgram (List.replicate 5 ⟨0xC00#12, []⟩) (ready [] (List.replicate 5 0xE0#8 ++ []))).seq = []
      ∧ (List.replicate 5 0xE0#8).length = 5 ∧ (∀ w ∈ List.replicate 5 0xE0#8, columnMask w = 0#5)
      ∧ (withProgram (List.replicate 5 ⟨0xC00#12, []⟩) (ready [] (List.replicate 5 0xE0#8 ++ []))).env.keyParty =
          .oracle (List.replicate 5 0xE0#8 ++ [])
      ∧ (withProgram (List.replicate 5 ⟨0xC00#12, []⟩) (ready [] (List.replicate 5 0xE0#8 ++ []))).env.program =
          List.replicate 5 ⟨0xC00#12, []⟩ := by decide

/-- The reference keypad at the second of two matrices, row 3 active. -/
def keypadAtSecond : State :=
  { State.reset with
    rowout := 0b01000#5,
    env := { Environment.initial with keyParty := .reference, keypad := ⟨[0#25] ++ 1#25 <<< 18 :: [], 1⟩ } }

/-- At the second of two matrices, and past the end. -/
theorem witness_ReferenceKeypadAnswersItsMatrix :
    keypadAtSecond.env.keyParty = .reference
      ∧ keypadAtSecond.env.keypad.script[min keypadAtSecond.env.keypad.cursor
          (keypadAtSecond.env.keypad.script.length - 1)]? = some (1#25 <<< 18)
      ∧ [0#25, 1#25 <<< 18][min 7 ([0#25, 1#25 <<< 18].length - 1)]? = some (1#25 <<< 18)
      ∧ (sampleColumns { keypadAtSecond with
          env := { keypadAtSecond.env with keypad := ⟨[0#25, 1#25 <<< 18], 7⟩ } }).1 = 0b01000#5 := by decide

theorem witness_UnlistedKeyEventsDoNothing : State.reset.env.dispatch = defaultDispatch := by decide

theorem witness_DigitKeyEventsWriteTheirDigit :
    (ready [0x00#8] []).env.dispatch = defaultDispatch ∧ (ready [0x00#8] []).pinsIdle = true
      ∧ (ready [0x00#8] []).lcdst ≠ .uninitialized ∧ (ready [0x00#8] []).env.lcd.latch = none
      ∧ (once 0x00#8).ok = true ∧ (ready [0x00#8] []).env.lcdParty = .oracle ((once 0x00#8).answers ++ []) := by
  decide

theorem witness_CollaboratorNeedsAnInitialisedLcd :
    (running [.call (.writeChar 0x30#8)] State.reset).env.lcd.latch = none
      ∧ (running [.call (.writeChar 0x30#8)] State.reset).seq = .call (.writeChar 0x30#8) :: []
      ∧ badOperand (.writeChar 0x30#8) = false ∧ needsInit (.writeChar 0x30#8) = true
      ∧ (running [.call (.writeChar 0x30#8)] State.reset).pinsIdle = true
      ∧ (running [.call (.writeChar 0x30#8)] State.reset).lcdst = .uninitialized := by decide

/-- The other clauses: a writing call (K6), `waitReady`, and `initialize` before the LCD is initialised. -/
theorem witness_CollaboratorNeedsAnInitialisedLcd_runs :
    isWriteCall (.writeChar 0x31#8) = true
      ∧ (running [.call (.writeChar 0x31#8)] (ready [0x01#8] [])).env.lcd.latch = none
      ∧ (running [.call (.writeChar 0x31#8)] (ready [0x01#8] [])).seq = .call (.writeChar 0x31#8) :: []
      ∧ (running [.call (.writeChar 0x31#8)] (ready [0x01#8] [])).pinsIdle = true
      ∧ (running [.call (.writeChar 0x31#8)] (ready [0x01#8] [])).lcdst ≠ .uninitialized
      ∧ [ByteWrite.mk true 0x31#8 (once 0x01#8)].map ByteWrite.sent = sends (.writeChar 0x31#8)
      ∧ (∀ w ∈ [ByteWrite.mk true 0x31#8 (once 0x01#8)], w.wait.ok = true)
      ∧ (running [.call (.writeChar 0x31#8)] (ready [0x01#8] [])).env.lcdParty =
          .oracle (answersOf [ByteWrite.mk true 0x31#8 (once 0x01#8)] ++ [])
      ∧ (running [.call .waitReady] (ready [0x01#8] [])).seq = .call .waitReady :: []
      ∧ (running [.call .waitReady] (ready [0x01#8] [])).env.lcdParty = .oracle ((once 0x01#8).answers ++ [])
      ∧ (running [.call .initializeLcd] (resetWith (List.replicate 6 0#8))).seq = .call .initializeLcd :: []
      ∧ initWrites.map ByteWrite.sent = sends .initializeLcd
      ∧ (running [.call .initializeLcd] (resetWith (List.replicate 6 0#8))).env.lcdParty =
          .oracle ((once 0#8).answers ++ answersOf initWrites ++ []) := by decide

/-- The banner's writes: line 1, one character. -/
def bannerWrites : List ByteWrite := [⟨false, 0xC0#8, once 0#8⟩, ⟨true, 0x41#8, once 0#8⟩]

theorem witness_StartupReachesTheScanLoop :
    (resetWith (List.replicate 10 0#8)).pinsIdle = true ∧ (resetWith (List.replicate 10 0#8)).env.lcd.latch = none
      ∧ (once 0#8).ok = true ∧ (∀ w ∈ initWrites ++ bannerWrites ++ clearWrites, w.wait.ok = true)
      ∧ initWrites.map ByteWrite.sent =
          [(false, Config.opFunctionSet), (false, Config.opDisplayControl), (false, Config.opClearDisplay),
            (false, Config.opEntryMode), (false, Config.opReturnHome)]
      ∧ (∀ p ∈ (resetWith (List.replicate 10 0#8)).env.banner.getD Config.banner, textOk p.2 = true)
      ∧ bannerWrites.map ByteWrite.sent =
          ((resetWith (List.replicate 10 0#8)).env.banner.getD Config.banner).flatMap
            (fun p => (false, Config.opSetDdram ||| (if p.1 = 0 then 0x00#8 else 0x40#8))
              :: p.2.map (fun c => (true, Config.charmap c)))
      ∧ clearWrites.map ByteWrite.sent = [(false, Config.opClearDisplay), (false, Config.opReturnHome)]
      ∧ (resetWith (List.replicate 10 0#8)).env.lcdParty =
          .oracle ((once 0#8).answers ++ answersOf (initWrites ++ bannerWrites ++ clearWrites) ++ []) := by decide

theorem witness_ScanLoopRunsOneMoreCycle :
    (running [.mainLoop] (ready [] [0x00#8])).env.lcd.latch = none
      ∧ (running [.mainLoop] (ready [] [0x00#8])).seq = .mainLoop :: [] ∧ columnMask 0x00#8 = 0#5
      ∧ (running [.mainLoop] (ready [] [0x00#8])).env.keyParty = .oracle (0x00#8 :: [])
      ∧ .mainLoop ∈ (running [.advanceRow, .mainLoop] State.reset).seq
      ∧ nextOf (step (running [.advanceRow, .mainLoop] .reset)) ≠ none := by decide

/-- A data byte, and the instruction bytes at both ends of the table. -/
theorem witness_WrittenBytesActOnTheLcd :
    decodePins (pinWord true false true 0x00#8) = .ok (.data 0x00#8)
      ∧ decodePins (pinWord false false true 0x01#8) = .ok .clearDisplay
      ∧ decodePins (pinWord false false true 0xFF#8) = .ok (.setDdramAddr 127#7)
      ∧ (withLcd (fun d => { d with latch := some (pinWord false false true 0x40#8) }) State.reset).env.lcd.latch =
          some (pinWord false false true 0x40#8) := by decide

/-- An LCD the spec describes, and one it does not; reset with the reference LCD. -/
theorem witness_ClearDisplayBlanksEveryCell :
    lcdDescribed (begun State.reset).env.lcd = true ∧ (withReference State.reset).env.lcdParty = .reference
      ∧ lcdDescribed { State.reset.env.lcd with log := [(false, 0x3F#8), (true, 0x18#8), (false, 0x0F#8)] } = true
      ∧ lcdDescribed { State.reset.env.lcd with log := [(true, 0x18#8), (false, 0x3F#8)] } = false
      ∧ lcdDescribed { State.reset.env.lcd with log := [(false, 0x38#8)] } = false := by decide

/-- Also for `AddressInstructionsMoveThePointer`: both LCDs; the bytes of all fields 0 and all fields 1. -/
theorem witness_ModeInstructionsWriteTheirSettings :
    (withReference State.reset).env.lcdParty = .reference ∧ State.reset.env.lcdParty ≠ .reference
      ∧ lcdDescribed (begun State.reset).env.lcd = true
      ∧ State.reset.env.lcd.slips = 0 ∧ State.reset.env.lcd.log = []
      ∧ entryModeByte true true = (0x04#8 ||| (if true then 2#8 else 0#8) ||| (if true then 1#8 else 0#8))
      ∧ displayControlByte false false false =
          (0x08#8 ||| (if false then 4#8 else 0#8) ||| (if false then 2#8 else 0#8) ||| (if false then 1#8 else 0#8))
      ∧ functionSetByte true true true 3#2 =
          (0x20#8 ||| (if true then 16#8 else 0#8) ||| (if true then 8#8 else 0#8) ||| (if true then 4#8 else 0#8)
            ||| (3#2).setWidth 8) := by decide

/-- The last position of a line and the one before it, the second position, and a position past the line. -/
theorem witness_DataByteIsStoredAtThePointer :
    let at_ := fun (a : BitVec 7) (i : Bool) =>
      sixteen (withLcd (fun d => { d with ac := a, increment := i, ddram := [(0, 0x41#8)] }) (begun State.reset))
    Memory.wf (at_ 0x4F#7 true).env.lcd.ddram = true ∧ lcdDescribed (at_ 0x4F#7 true).env.lcd = true
      ∧ (at_ 0x4F#7 true).env.lcdParty ≠ .reference
      ∧ (at_ 0x4F#7 true).env.lcd.ac.toNat % 64 < (at_ 0x4F#7 true).env.lcd.cols.getD Config.lcdCols
      ∧ (at_ 0x4E#7 true).env.lcd.increment = true
      ∧ (at_ 0x4E#7 true).env.lcd.ac.toNat % 64 + 1 < min 64 ((at_ 0x4E#7 true).env.lcd.cols.getD Config.lcdCols)
      ∧ (at_ 0x01#7 false).env.lcd.increment = false ∧ 0 < (at_ 0x01#7 false).env.lcd.ac.toNat % 64
      ∧ (at_ 0x01#7 false).env.lcd.ac.toNat % 64 < (at_ 0x01#7 false).env.lcd.cols.getD Config.lcdCols
      ∧ (withReference (at_ 127#7 true)).env.lcdParty = .reference ∧ lcdDescribed (at_ 0x50#7 true).env.lcd = true := by
  decide

theorem witness_DeviceTurnLeavesTheBlockAlone :
    (withLcd (fun d => { d with latch := some (pinWord false false true 0x01#8) }) State.reset).env.lcd.latch =
        some (pinWord false false true 0x01#8)
      ∧ latchIsWrite (withLcd (fun d => { d with latch := some (pinWord false false true 0x01#8) }) State.reset) = true
      ∧ nextOf (step (withLcd (fun d => { d with latch := some (pinWord false false true 0x01#8) }) .reset)) ≠
          none := by decide

theorem witness_EveryStepKeepsTheDisplayRamCanonical :
    Memory.wf (withLcd (fun d => { d with cols := some 16, ddram := [(0, 0x41#8), (64, 0x42#8)], latch := some 0b10101101000#11 })
        (begun State.reset)).env.lcd.ddram = true
      ∧ (nextOf (step (withLcd (fun d =>
          { d with cols := some 16, ddram := [(0, 0x41#8), (64, 0x42#8)], latch := some 0b10101101000#11 }) (begun .reset)))).map
            (fun t => t.env.lcd.ddram) = some [(0, 0x68#8), (64, 0x42#8)] := by decide

/-- K10 again: an accepted key whose program clears, from a row and an LCD that are ready; and the samples of K1, K4. -/
theorem witness_LeastDelaysOfTheDriver :
    { ready [0#8, 0#8] (heldKeys quietKeys) with row := 4 }.pinsIdle = true
      ∧ { ready [0#8, 0#8] (heldKeys quietKeys) with row := 4 }.env.lcd.latch = none
      ∧ (ready [0x80#8, 0x00#8] []).env.lcdParty = .oracle ((Wait.mk [0x80#8] 0x00#8).answers ++ [])
      ∧ (ready [0x80#8, 0x00#8] []).lcdst ≠ .uninitialized
      ∧ clearWrites.map ByteWrite.sent = sends .clear ∧ (∀ w ∈ clearWrites, w.wait.ok = true)
      ∧ (ready [0#8, 0#8] []).env.lcdParty = .oracle (answersOf clearWrites ++ [])
      ∧ (ready [0#8, 0#8] []).pinsIdle = true ∧ textOk [0x41#8] = true
      ∧ [ByteWrite.mk false 0xC0#8 (once 0#8), ByteWrite.mk true 0x41#8 (once 0#8)].map ByteWrite.sent =
          sends (.writeLine 1 [0x41#8])
      ∧ (resetWith (List.replicate 6 0#8)).env.lcdParty = .oracle (List.replicate 6 0#8 ++ [])
      ∧ (∀ b ∈ List.replicate 6 0#8, busyFlag b = false)
      ∧ (ready [] [0xE0#8]).env.keyParty = .oracle (0xE0#8 :: []) ∧ columnMask 0xE0#8 = 0#5
      ∧ singleMask (columnMask 0x03#8) = false ∧ columnMask 0x10#8 = 1#5 <<< (4 : Fin 5).val
      ∧ { ready [0#8, 0#8] (heldKeys quietKeys) with row := 4 }.env.keyParty =
          .oracle (0x10#8 :: List.replicate 99 0x10#8 ++ 0x10#8 :: quietKeys) := by
  refine ⟨by decide, by decide, by decide, by decide, by decide, by decide, by decide, by decide, by decide, by decide,
    by decide, by decide, rfl, by decide, by decide, by decide, rfl⟩

end Sys2Proof.Machine.Tests
end

/-! The agents of spec/00_scope.md R9 and R10: what the attached LCD's turn can change, and the host's turn. -/

namespace Sys2Proof.Machine

/-! ### The instructions that are bytes written to the LCD -/

/-- The bytes the attached LCD acts on: the instruction bytes of spec/30_encoding.md R84 to R89 and the data byte of
R91. The status byte (R90) is read by the block. -/
def isLcdWrite : Instr → Bool
  | .clearDisplay => true
  | .returnHome _ => true
  | .entryModeSet _ _ => true
  | .displayControl _ _ _ => true
  | .functionSet _ _ _ _ => true
  | .setDdramAddr _ => true
  | .data _ => true
  | _ => false

theorem isLcdWrite_of_decodeLcdInstruction {b : Byte} {i : Instr} (h : decodeLcdInstruction b = .ok i) :
    isLcdWrite i = true := by
  unfold decodeLcdInstruction at h
  split_ifs at h <;> cases h <;> rfl

/-- With `RW` low a transaction carries a byte written to the LCD, if it carries anything (R82). -/
theorem isLcdWrite_of_decodePins {w : PinWord} {i : Instr} (hrw : w.getLsbD 9 = false)
    (h : decodePins w = .ok i) : isLcdWrite i = true := by
  unfold decodePins at h
  rw [hrw] at h
  split_ifs at h
  cases hrs : w.getLsbD 10 with
  | false =>
    rw [hrs] at h
    exact isLcdWrite_of_decodeLcdInstruction h
  | true =>
    rw [hrs] at h
    cases h
    rfl

/-! ### What such a byte changes -/

theorem refStore_latch (b : Byte) (d : LcdDevice) : (refStore b d).latch = d.latch := rfl

theorem lcdStore_latch (b : Byte) (d : LcdDevice) : (lcdStore b d).latch = d.latch := by
  rw [lcdStore_frame]

/-- Every byte written to the LCD is taken by it: the meaning is `lcdTake`, with effects that leave alone what the
device has taken from the bus. -/
theorem exec_eq_lcdTake_of_isLcdWrite {i : Instr} (h : isLcdWrite i = true) (s : State) :
    ∃ (rs : Bool) (b : Byte) (f g : LcdDevice → LcdDevice), exec i s = .next (lcdTake rs b f g s)
      ∧ (∀ d, (f d).latch = d.latch) ∧ (∀ d, (g d).latch = d.latch) := by
  cases i with
  | clearDisplay => exact ⟨_, _, _, _, rfl, fun _ => rfl, fun _ => rfl⟩
  | returnHome x => exact ⟨_, _, _, _, rfl, fun _ => rfl, fun _ => rfl⟩
  | entryModeSet im sh => exact ⟨_, _, _, _, rfl, fun _ => rfl, fun _ => rfl⟩
  | displayControl d c b => exact ⟨_, _, _, _, rfl, fun _ => rfl, fun _ => rfl⟩
  | functionSet l n f x => exact ⟨_, _, _, _, rfl, fun _ => rfl, fun _ => rfl⟩
  | setDdramAddr a => exact ⟨_, _, _, _, rfl, fun _ => rfl, fun _ => rfl⟩
  | data d => exact ⟨_, _, _, _, rfl, refStore_latch d, lcdStore_latch d⟩
  | _ => cases h

theorem exec_frame_of_isLcdWrite {i : Instr} {s t : State} (h : isLcdWrite i = true) (ht : exec i s = .next t) :
    ∃ d, t = s.setLcd d ∧ d.latch = s.env.lcd.latch := by
  obtain ⟨rs, b, f, g, hexec, hf, hg⟩ := exec_eq_lcdTake_of_isLcdWrite h s
  cases hexec.symm.trans ht
  exact lcdTake_frame rs b s hf hg

/-! ### The attached LCD's turn -/

theorem latchIsWrite_of_latch {s : State} {w : PinWord} (hl : s.env.lcd.latch = some w) :
    latchIsWrite s = true ↔ w.getLsbD 9 = false := by
  simp [latchIsWrite, hl]

/-- A step in which the attached LCD acts on a byte written to it: from the state with the byte gone from the latch,
the device alone is changed, whether the byte is one of the table, an unassigned one or none at all. -/
theorem step_frame_of_write {s t : State} {w : PinWord} (hl : s.env.lcd.latch = some w)
    (hrw : w.getLsbD 9 = false) (h : step s = .next t) : ∃ d, t = s.setLcd d ∧ d.latch = none := by
  obtain ⟨w', hl', hturn⟩ | ⟨hnone, -⟩ | ⟨hnone, -⟩ := step_cases h
  · cases hl.symm.trans hl'
    obtain ⟨i, hi, hexec⟩ | ⟨b, -, rfl⟩ | rfl := hturn
    · exact exec_frame_of_isLcdWrite (isLcdWrite_of_decodePins hrw hi) hexec
    · exact lcdTake_frame Config.rsInstr b (s.setLcd { s.env.lcd with latch := none }) (fun _ => rfl) (fun _ => rfl)
    · exact ⟨_, rfl, rfl⟩
  · cases hl.symm.trans hnone
  · cases hl.symm.trans hnone

/-- Settles O57: the turn is one of the three of `step_cases`, and each changes the device alone. -/
theorem deviceTurnLeavesTheBlockAlone : Obligations.DeviceTurnLeavesTheBlockAlone :=
  fun _ _ _ hl hw h => step_frame_of_write hl ((latchIsWrite_of_latch hl).mp hw) h

/-! ### The host's turn -/

/-- With nothing taken, no line to run and no command to issue the machine stays as it is (log entry 6). -/
theorem step_idle {s : State} (hl : s.env.lcd.latch = none) (hs : s.seq = []) (hp : s.env.program = []) :
    step s = .next s := by
  simp [step, nextTurn, hostTurn, hl, hs, hp]

/-- Settles O5: the host's turn, with a command to issue and with none. -/
theorem stepRunsTheHostsNextCommand : Obligations.StepRunsTheHostsNextCommand :=
  fun _ hl hs => ⟨fun _ _ hp => step_host hl hs hp, step_idle hl hs⟩

end Sys2Proof.Machine

/-! The state of spec/10_state.md: what one step can do to it, said once by the operation that does it, and what follows
for `DDIR`, `LCDST`, `ROW`, `ROWOUT` and the key events. -/

namespace Sys2Proof.Machine

/-! ### The samples -/

/-- `readData` with the environment's part named. -/
theorem readData_eq (s : State) :
    ∃ e, readData s = { takeSample (lcdAnswer s).1 { s with env := e } with result := (lcdAnswer s).1 } := by
  obtain ⟨e, he, -⟩ := lcdAnswer_frame s
  exact ⟨e, by rw [readData, he]⟩

@[simp] theorem readData_ddir (s : State) : (readData s).ddir = .input := rfl
@[simp] theorem readData_lcdst (s : State) : (readData s).lcdst = s.lcdst := by
  obtain ⟨e, he⟩ := readData_eq s; simp [he]
@[simp] theorem readData_row (s : State) : (readData s).row = s.row := by
  obtain ⟨e, he⟩ := readData_eq s; simp [he]
@[simp] theorem readData_rowout (s : State) : (readData s).rowout = s.rowout := by
  obtain ⟨e, he⟩ := readData_eq s; simp [he]
@[simp] theorem readData_trace (s : State) : (readData s).trace = s.trace ++ [.sample (lcdAnswer s).1] := by
  obtain ⟨e, he⟩ := readData_eq s; simp [he]

/-- `sampleColumns` with the environment's part named (R162). -/
theorem sampleColumns_eq (s : State) :
    ∃ e, sampleColumns s =
      (columnMask (keyAnswer s).1, { s with env := e }.emit (.col (columnMask (keyAnswer s).1))) := by
  obtain ⟨e, he, -⟩ := keyAnswer_frame s
  exact ⟨e, by rw [sampleColumns, he]⟩

/-- Sampling into `MASK` changes `MASK`, the trace and the environment (R164). -/
theorem sampleMask_eq (s : State) :
    ∃ e, sampleMask s =
      { { s with env := e }.emit (.col (columnMask (keyAnswer s).1)) with mask := columnMask (keyAnswer s).1 } := by
  obtain ⟨e, h⟩ := sampleColumns_eq s
  exact ⟨e, by rw [sampleMask, h]⟩

@[simp] theorem sampleMask_lcdst (s : State) : (sampleMask s).lcdst = s.lcdst := by
  obtain ⟨e, he⟩ := sampleMask_eq s; simp [he]
@[simp] theorem sampleMask_row (s : State) : (sampleMask s).row = s.row := by
  obtain ⟨e, he⟩ := sampleMask_eq s; simp [he]
@[simp] theorem sampleMask_rowout (s : State) : (sampleMask s).rowout = s.rowout := by
  obtain ⟨e, he⟩ := sampleMask_eq s; simp [he]
@[simp] theorem sampleMask_trace (s : State) :
    (sampleMask s).trace = s.trace ++ [.col (columnMask (keyAnswer s).1)] := by
  obtain ⟨e, he⟩ := sampleMask_eq s; simp [he]

/-- A sample of the release-confirmation loop changes `CNT`, the trace and the environment, not `MASK` (R170). -/
theorem releaseSample_eq (s : State) :
    ∃ e, releaseSample s =
      { { s with env := e }.emit (.col (columnMask (keyAnswer s).1)) with
        cnt := if nonzeroMask (columnMask (keyAnswer s).1) then 0#7 else s.cnt + 1#7 } := by
  obtain ⟨e, h⟩ := sampleColumns_eq s
  refine ⟨e, ?_⟩
  rw [releaseSample, h]
  cases nonzeroMask (columnMask (keyAnswer s).1) <;> rfl

@[simp] theorem releaseSample_lcdst (s : State) : (releaseSample s).lcdst = s.lcdst := by
  obtain ⟨e, he⟩ := releaseSample_eq s; simp [he]
@[simp] theorem releaseSample_row (s : State) : (releaseSample s).row = s.row := by
  obtain ⟨e, he⟩ := releaseSample_eq s; simp [he]
@[simp] theorem releaseSample_rowout (s : State) : (releaseSample s).rowout = s.rowout := by
  obtain ⟨e, he⟩ := releaseSample_eq s; simp [he]
@[simp] theorem releaseSample_trace (s : State) :
    (releaseSample s).trace = s.trace ++ [.col (columnMask (keyAnswer s).1)] := by
  obtain ⟨e, he⟩ := releaseSample_eq s; simp [he]

/-! ### The loop heads push lines and do nothing else -/

theorem pollUntil_eq_pushSeq (s : State) : ∃ prog, pollUntil s = s.pushSeq prog := by
  unfold pollUntil
  split
  · exact ⟨_, rfl⟩
  · exact ⟨[], rfl⟩

theorem writeText_eq_pushSeq (text : List Byte) (s : State) : ∃ prog, writeText text s = s.pushSeq prog := by
  cases text with
  | nil => exact ⟨[], rfl⟩
  | cons c rest =>
    unfold writeText
    dsimp only
    split
    · exact ⟨[], rfl⟩
    · exact ⟨_, rfl⟩

theorem confirmLoop_eq_pushSeq (s : State) : ∃ prog, confirmLoop s = s.pushSeq prog := by
  unfold confirmLoop
  split
  · exact ⟨_, rfl⟩
  · exact ⟨[], rfl⟩

theorem releaseLoop_eq_pushSeq (s : State) : ∃ prog, releaseLoop s = s.pushSeq prog := by
  unfold releaseLoop
  split
  · exact ⟨_, rfl⟩
  · exact ⟨[], rfl⟩

/-- What the call of a driver operation can answer, as a line. -/
theorem callTurn_state {c : LcdCall} {after : List Micro} {s t : State} (h : callTurn c after s = .state t) :
    entryRefusal c s = none ∧ t = s.pushSeq (callLines c ++ after) := by
  unfold callTurn at h
  split at h
  · cases h
  · rename_i hr
    exact ⟨hr, by cases h; rfl⟩

/-- A status read is an instruction's turn, whatever the byte. -/
theorem statusTurn_eq (s : State) :
    statusTurn s =
      .instr (.status ((lcdAnswer s).1.getLsbD 7) ((lcdAnswer s).1.extractLsb' 0 7)) (lcdAnswer s).2 := by
  simp only [statusTurn, decodePins_status]

/-! ### What an instruction, a line and a step can do -/

/-- What an instruction can do: one operation of the bus primitive, a status read, a change of the attached LCD, or
the call of a procedure. -/
inductive InstrEffect (s : State) : State → Prop where
  | setControlLines (rs rw e : Bool) : InstrEffect s (setControlLines rs rw e s)
  | driveData (b : Byte) : InstrEffect s (driveData b s)
  | readData : InstrEffect s (readData s)
  | releaseData : InstrEffect s (releaseData s)
  | delayBus (n : Nat) : InstrEffect s (delayBus n s)
  | readStatus (b : Byte) : InstrEffect s (readStatus b s)
  | setLcd (d : LcdDevice) : InstrEffect s (s.setLcd d)
  | pushSeq (prog : List Micro) : InstrEffect s (s.pushSeq prog)

/-- What a line can do: what an instruction can, or the operation that this line alone stands for. -/
inductive LineEffect (s : State) : Micro → State → Prop where
  | instr {m : Micro} {t : State} (h : InstrEffect s t) : LineEffect s m t
  | delayScan (n : Nat) : LineEffect s (.delayScan n) (delayScan n s)
  | settleReady : LineEffect s .settleReady (settleReady s)
  | markBusy : LineEffect s .markBusy (markBusy s)
  | markReady : LineEffect s .markReady (markReady s)
  | activateRow : LineEffect s .activateRow (activateRow s)
  | sampleMask : LineEffect s .sampleMask (sampleMask s)
  | clearCount : LineEffect s .clearCount (clearCount s)
  | bumpCount : LineEffect s .bumpCount (bumpCount s)
  | key (prog : List Micro) (h : singleMask s.mask = true) :
    LineEffect s .accept ((s.emit (.key (resolvedKey s))).pushSeq prog)
  | releaseSample : LineEffect s .releaseSample (releaseSample s)
  | deactivateRow : LineEffect s .deactivateRow (deactivateRow s)
  | advanceRow : LineEffect s .advanceRow (advanceRow s)
  | scanDone : LineEffect s .scanDone (scanDone s)

theorem InstrEffect.of_issueCall {c : LcdCall} {after : List Micro} {s t : State}
    (h : issueCall c after s = .next t) : InstrEffect s t := by
  obtain ⟨-, rfl⟩ := issueCall_next h
  exact .pushSeq _

theorem InstrEffect.of_issueProgram {calls : List LcdCall} {s t : State} (h : issueProgram calls s = .next t) :
    InstrEffect s t := by
  obtain ⟨-, rfl⟩ | ⟨c, rest, -, -, rfl⟩ := issueProgram_next h
  · exact .pushSeq []
  · exact .pushSeq _

theorem InstrEffect.of_isLcdWrite {i : Instr} {s t : State} (hi : isLcdWrite i = true) (h : exec i s = .next t) :
    InstrEffect s t := by
  obtain ⟨d, rfl, -⟩ := exec_frame_of_isLcdWrite hi h
  exact .setLcd d

/-- Every instruction that is not refused does one of these. -/
theorem exec_effect {i : Instr} {s t : State} (h : exec i s = .next t) : InstrEffect s t := by
  cases i with
  | setControlLines rs rw e => cases h; exact .setControlLines rs rw e
  | driveData b => cases h; exact .driveData b
  | readData => cases h; exact .readData
  | releaseData => cases h; exact .releaseData
  | delayBus n => cases h; exact .delayBus n.toNat
  | waitReady => exact .of_issueCall h
  | writeInstruction code => exact .of_issueCall h
  | writeData b => exact .of_issueCall h
  | initializeLcd => exact .of_issueCall h
  | writeLine lineIndex text => exact .of_issueCall h
  | writeChar c => exact .of_issueCall h
  | clear => exact .of_issueCall h
  | scanCycle => cases h; exact .pushSeq scanLines
  | keyEvent k =>
    simp only [exec, execKeyEvent] at h
    split at h
    · cases h
    · exact .of_issueProgram h
  | startup => exact .of_issueCall h
  | reserved w => cases h
  | status b a => cases h; exact .readStatus (statusByte b a)
  | clearDisplay => exact .of_isLcdWrite rfl h
  | returnHome x => exact .of_isLcdWrite rfl h
  | entryModeSet im sh => exact .of_isLcdWrite rfl h
  | displayControl d c b => exact .of_isLcdWrite rfl h
  | functionSet l n f x => exact .of_isLcdWrite rfl h
  | setDdramAddr a => exact .of_isLcdWrite rfl h
  | data d => exact .of_isLcdWrite rfl h

theorem LineEffect.of_pushSeq {m : Micro} {s t : State} (h : ∃ prog, t = s.pushSeq prog) : LineEffect s m t := by
  obtain ⟨prog, rfl⟩ := h
  exact .instr (.pushSeq prog)

/-- The acceptance test: a key event from a mask with one bit set, else nothing (R166). -/
theorem acceptKey_effect (s : State) : LineEffect s .accept (acceptKey s) := by
  unfold acceptKey
  split
  · exact .key _ ‹_›
  · exact .instr (.pushSeq [])

/-- Every line that is neither refused nor a status read does one of these. -/
theorem lineTurn_effect {m : Micro} {s t : State} (h : lineTurn m s = .state t) : LineEffect s m t := by
  cases m with
  | readStatus => rw [lineTurn, statusTurn_eq] at h; cases h
  | call c =>
    obtain ⟨-, rfl⟩ := callTurn_state h
    exact .instr (.pushSeq _)
  | ctl rs rw e => cases h; exact .instr (.setControlLines rs rw e)
  | drive b => cases h; exact .instr (.driveData b)
  | release => cases h; exact .instr .releaseData
  | delayBus n => cases h; exact .instr (.delayBus n)
  | pollUntil => cases h; exact .of_pushSeq (pollUntil_eq_pushSeq s)
  | writeText text => cases h; exact .of_pushSeq (writeText_eq_pushSeq text s)
  | confirmLoop => cases h; exact .of_pushSeq (confirmLoop_eq_pushSeq s)
  | releaseLoop => cases h; exact .of_pushSeq (releaseLoop_eq_pushSeq s)
  | banner => cases h; exact .instr (.pushSeq (bannerLines s))
  | mainLoop => cases h; exact .instr (.pushSeq (scanLines ++ [.mainLoop]))
  | accept => cases h; exact acceptKey_effect s
  | delayScan n => cases h; exact .delayScan n
  | settleReady => cases h; exact .settleReady
  | markBusy => cases h; exact .markBusy
  | markReady => cases h; exact .markReady
  | activateRow => cases h; exact .activateRow
  | sampleMask => cases h; exact .sampleMask
  | clearCount => cases h; exact .clearCount
  | bumpCount => cases h; exact .bumpCount
  | releaseSample => cases h; exact .releaseSample
  | deactivateRow => cases h; exact .deactivateRow
  | advanceRow => cases h; exact .advanceRow
  | scanDone => cases h; exact .scanDone

/-- A line whose turn is an instruction is the status read, and the instruction starts from the state the environment
has answered in. -/
theorem lineTurn_instr {m : Micro} {s u : State} {i : Instr} (h : lineTurn m s = .instr i u) :
    ∃ e, u = { s with env := e } := by
  cases m with
  | readStatus =>
    rw [lineTurn, statusTurn_eq] at h
    cases h
    obtain ⟨e, he, -⟩ := lcdAnswer_frame s
    exact ⟨e, he⟩
  | call c =>
    simp only [lineTurn, callTurn] at h
    split at h <;> cases h
  | _ => cases h

/-- What a step can do, whosever turn it is: what an instruction can, from `s` with other lines to run and another
environment; or what the next line of `SEQ` can, no byte being with the attached LCD. -/
theorem step_effect {s t : State} (h : step s = .next t) :
    (∃ q e, InstrEffect { s with seq := q, env := e } t) ∨
      (s.env.lcd.latch = none ∧ ∃ m rest, s.seq = m :: rest ∧ LineEffect { s with seq := rest } m t) := by
  obtain ⟨w, -, hdevice⟩ | ⟨hl, m, rest, hs, hline⟩ | ⟨-, -, hhost⟩ := step_cases h
  · refine .inl ⟨s.seq, { s.env with lcd := { s.env.lcd with latch := none } }, ?_⟩
    obtain ⟨i, -, hi⟩ | ⟨b, -, rfl⟩ | rfl := hdevice
    · exact exec_effect hi
    · obtain ⟨d, hd, -⟩ := lcdTake_frame Config.rsInstr b (s.setLcd { s.env.lcd with latch := none })
        (fun _ => rfl) (fun _ => rfl)
      exact hd ▸ .setLcd d
    · exact .pushSeq []
  · obtain hstate | ⟨i, u, hu, hi⟩ := hline
    · exact .inr ⟨hl, m, rest, hs, lineTurn_effect hstate⟩
    · obtain ⟨e, rfl⟩ := lineTurn_instr hu
      exact .inl ⟨rest, e, exec_effect hi⟩
  · obtain ⟨-, rfl⟩ | ⟨c, rest, -, hc⟩ := hhost
    · exact .inl ⟨t.seq, t.env, .pushSeq []⟩
    · exact .inl ⟨s.seq, { s.env with program := rest }, exec_effect hc⟩

/-! ### Reset -/

/-- Settles O8: field by field of `State.reset`. -/
theorem resetLeavesTheValuesTheSpecGives : Obligations.ResetLeavesTheValuesTheSpecGives :=
  ⟨rfl, rfl, rfl, rfl, rfl, rfl, rfl, rfl, rfl, rfl⟩

/-- The monitor that has seen nothing is in the phase between operations, whatever the poll variable holds. -/
theorem Phase.idle_matches_start (poll : Byte) : Phase.idle.matches Watch.start poll = true := rfl

/-- Settles O26: no event so far, no line to run, no command and no byte taken. -/
theorem resetKeepsTheBusDiscipline : Obligations.ResetKeepsTheBusDiscipline :=
  ⟨⟨Phase.idle, Phase.idle_matches_start State.reset.poll, by decide⟩, rfl, rfl⟩

/-! ### `DDIR`: a sample is taken as an input (R25) -/

theorem InstrEffect.ddir_of_sample {s t : State} {b : Byte} (h : InstrEffect s t)
    (ht : t.trace = s.trace ++ [.sample b]) : t.ddir = .input := by
  cases h with
  | readData => exact readData_ddir s
  | readStatus b => exact readStatus_ddir s b
  | releaseData => exact releaseData_ddir s
  | setControlLines | driveData | delayBus | setLcd | pushSeq => simp at ht

/-- The lines that are no instruction's work add no sample of the data bus. -/
theorem LineEffect.ddir_of_sample {s t : State} {m : Micro} {b : Byte} (h : LineEffect s m t)
    (ht : t.trace = s.trace ++ [.sample b]) : t.ddir = .input := by
  cases h with
  | instr h => exact h.ddir_of_sample ht
  | _ => simp at ht

/-- Settles O29, by what the step can do. -/
theorem samplesAreTakenAsInput : Obligations.SamplesAreTakenAsInput := by
  intro s t b h ht
  obtain ⟨q, e, hi⟩ | ⟨-, m, rest, -, hm⟩ := step_effect h
  · exact hi.ddir_of_sample ht
  · exact hm.ddir_of_sample ht

/-! ### `LCDST` leaves `Uninitialized` at `markReady` only (R27) -/

theorem InstrEffect.lcdst_eq {s t : State} (h : InstrEffect s t) : t.lcdst = s.lcdst := by
  cases h <;> simp

/-- `markBusy` and `settleReady` leave `Uninitialized` alone (R27(5)); only `markReady` ends it. -/
theorem LineEffect.lcdst_of_uninitialized {s t : State} {m : Micro} (h : LineEffect s m t)
    (hs : s.lcdst = .uninitialized) : t.lcdst = .uninitialized ∨ t.lcdst = .ready ∧ m = .markReady := by
  cases h with
  | instr h => exact .inl (h.lcdst_eq.trans hs)
  | markReady => exact .inr ⟨rfl, rfl⟩
  | markBusy => exact .inl (by simp [markBusy_lcdst, hs])
  | settleReady => exact .inl (by simp [settleReady_lcdst, hs])
  | _ => exact .inl (by simp [hs])

/-- Settles O30, by what the step can do. -/
theorem onlyInitializeLeavesUninitialized : Obligations.OnlyInitializeLeavesUninitialized := by
  intro s t hs h ht
  obtain ⟨q, e, hi⟩ | ⟨hl, m, rest, hseq, hm⟩ := step_effect h
  · exact absurd (hi.lcdst_eq.trans hs) ht
  · obtain hu | ⟨hr, rfl⟩ := hm.lcdst_of_uninitialized hs
    · exact absurd hu ht
    · exact ⟨hr, hl, rest, hseq⟩

/-! ### `ROW` moves at `advanceRow` (R28) -/

theorem InstrEffect.row_eq {s t : State} (h : InstrEffect s t) : t.row = s.row := by
  cases h <;> simp

theorem LineEffect.row_eq_or {s t : State} {m : Micro} (h : LineEffect s m t) :
    t.row = s.row ∨ t.row = nextRow s.row ∧ m = .advanceRow := by
  cases h with
  | instr h => exact .inl h.row_eq
  | advanceRow => exact .inr ⟨rfl, rfl⟩
  | _ => exact .inl (by simp)

/-- Settles O41, by what the step can do. -/
theorem onlyAdvanceRowMovesTheRow : Obligations.OnlyAdvanceRowMovesTheRow := by
  intro s t h ht
  obtain ⟨q, e, hi⟩ | ⟨hl, m, rest, hseq, hm⟩ := step_effect h
  · exact absurd hi.row_eq ht
  · obtain hr | ⟨hr, rfl⟩ := hm.row_eq_or
    · exact absurd hr ht
    · exact ⟨hr, hl, rest, hseq⟩

/-! ### `ROWOUT` holds no row or one (R29) -/

theorem InstrEffect.rowout_eq {s t : State} (h : InstrEffect s t) : t.rowout = s.rowout := by
  cases h <;> simp

theorem LineEffect.rowout_eq_or {s t : State} {m : Micro} (h : LineEffect s m t) :
    t.rowout = s.rowout ∨ t.rowout = onehot5 s.row ∨ t.rowout = 0#5 := by
  cases h with
  | instr h => exact .inl h.rowout_eq
  | activateRow => exact .inr (.inl rfl)
  | deactivateRow => exact .inr (.inr rfl)
  | _ => exact .inl (by simp)

theorem legalRowWord_onehot5 (row : Fin 5) : legalRowWord (onehot5 row) = true := by
  revert row; decide

theorem legalRowWord_zero : legalRowWord 0#5 = true := rfl

/-- Settles O40: the row word is left alone, activated for the current row, or cleared. -/
theorem everyStepKeepsTheRowWordLegal : Obligations.EveryStepKeepsTheRowWordLegal := by
  intro s t hs h
  obtain ⟨q, e, hi⟩ | ⟨-, m, rest, -, hm⟩ := step_effect h
  · exact hi.rowout_eq ▸ hs
  · obtain hr | hr | hr := hm.rowout_eq_or
    · exact hr ▸ hs
    · exact hr ▸ legalRowWord_onehot5 s.row
    · exact hr ▸ legalRowWord_zero

/-! ### A key event comes from a mask with one bit set (R166, R174) -/

/-- The position of the set bit of a single-bit mask gives the mask back, whatever free value is drawn (R168). -/
theorem shiftLeft_positionOfSetBit {m : KeyWord} (n : Nat) (h : singleMask m = true) :
    1#5 <<< (positionOfSetBit n m).val = m := by
  unfold positionOfSetBit
  rw [if_pos h]
  revert m
  decide

theorem keyCode_mod (row col : Fin 5) : (keyCode row col).val % 5 = col.val := by
  simp only [keyCode]; omega

theorem keyCode_div (row col : Fin 5) : (keyCode row col).val / 5 = row.val := by
  simp only [keyCode]; omega

theorem InstrEffect.trace_ne_key {s t : State} (h : InstrEffect s t) (k : Fin 25) :
    t.trace ≠ s.trace ++ [.key k] := by
  cases h <;> simp

/-- A line that adds a key event is the acceptance of the key its mask and row name; the mask has one bit set, and the
row and the row word stay. -/
theorem LineEffect.of_key {s t : State} {m : Micro} {k : Fin 25} (h : LineEffect s m t)
    (ht : t.trace = s.trace ++ [.key k]) :
    k = resolvedKey s ∧ singleMask s.mask = true ∧ t.row = s.row ∧ t.rowout = s.rowout := by
  cases h with
  | instr h => exact absurd ht (h.trace_ne_key k)
  | key prog hm => exact ⟨by simpa using ht.symm, hm, rfl, rfl⟩
  | _ => simp at ht

/-- Settles O39: the event is the acceptance of a single-bit mask, and its code names that bit and the row. -/
theorem keyEventsComeFromSingleBitMasks : Obligations.KeyEventsComeFromSingleBitMasks := by
  intro s t k h ht
  obtain ⟨q, e, hi⟩ | ⟨-, m, rest, -, hm⟩ := step_effect h
  · exact absurd ht (hi.trace_ne_key k)
  · obtain ⟨rfl, hmask, hrow, hrowout⟩ := hm.of_key ht
    refine ⟨?_, (keyCode_div _ _).symm, hrow, hrowout⟩
    rw [resolvedKey, keyCode_mod]
    exact (shiftLeft_positionOfSetBit _ hmask).symm

end Sys2Proof.Machine

/-! The display RAM and the reference devices of spec/20_memory.md: the canonical form every step keeps, what a byte
written to the attached LCD does by its value, the reference LCD over a whole write, and the reference keypad's sample. -/

namespace Sys2Proof.Machine

/-! ### The display RAM stays canonical -/

theorem lcdAnswer_ddram (s : State) : (lcdAnswer s).2.env.lcd.ddram = s.env.lcd.ddram := by
  obtain ⟨e, he, -, -, hram, -⟩ := lcdAnswer_frame s
  rw [he, hram]

@[simp] theorem sampleColumns_lcd (s : State) : (sampleColumns s).2.env.lcd = s.env.lcd := by
  obtain ⟨e, he, -, hlcd, -⟩ := keyAnswer_frame s
  rw [sampleColumns, he]
  exact hlcd

theorem sampleMask_lcd (s : State) : (sampleMask s).env.lcd = s.env.lcd := sampleColumns_lcd s

theorem releaseSample_lcd (s : State) : (releaseSample s).env.lcd = s.env.lcd := by
  unfold releaseSample
  dsimp only
  split
  · exact sampleColumns_lcd s
  · exact sampleColumns_lcd s

theorem readData_ddram_wf {s : State} (hs : Memory.wf s.env.lcd.ddram = true) :
    Memory.wf (readData s).env.lcd.ddram = true :=
  lcdHears_wf (by rwa [lcdAnswer_ddram]) (lcdAnswer s).2.busView (.sample (lcdAnswer s).1) (lcdAnswer s).2.env.lcdParty

theorem issueProgram_lcd {calls : List LcdCall} {s t : State} (h : issueProgram calls s = .next t) :
    t.env.lcd = s.env.lcd := by
  obtain ⟨-, rfl⟩ | ⟨c, rest, -, -, rfl⟩ := issueProgram_next h
  · rfl
  · rfl

theorem issueCall_lcd {c : LcdCall} {after : List Micro} {s t : State} (h : issueCall c after s = .next t) :
    t.env.lcd = s.env.lcd := by
  obtain ⟨-, rfl⟩ := issueCall_next h
  rfl

/-- Every instruction keeps the display RAM canonical: a bus primitive and a status read by what an LCD hears, a byte
written to the LCD by what it does to the cells, a call not at all. -/
theorem exec_ddram_wf {i : Instr} {s t : State} (h : exec i s = .next t) (hs : Memory.wf s.env.lcd.ddram = true) :
    Memory.wf t.env.lcd.ddram = true := by
  cases i with
  | setControlLines | driveData | releaseData | delayBus | status => cases h; exact lcdHears_wf hs _ _ _
  | readData => cases h; exact readData_ddram_wf hs
  | clearDisplay => cases h; exact lcdTake_wf _ _ (fun _ _ => Memory.wf_nil) (fun _ _ => Memory.wf_nil) hs
  | returnHome | entryModeSet | displayControl | functionSet | setDdramAddr =>
    cases h; exact lcdTake_wf _ _ (fun _ hd => hd) (fun _ hd => hd) hs
  | data d => cases h; exact lcdTake_wf _ _ (fun _ hd => refStore_wf hd d) (fun _ hd => lcdStore_wf hd d) hs
  | scanCycle => cases h; exact hs
  | reserved w => cases h
  | keyEvent k =>
    simp only [exec, execKeyEvent] at h
    split at h
    · cases h
    · rwa [issueProgram_lcd h]
  | waitReady | writeInstruction | writeData | initializeLcd | writeLine | writeChar | clear | startup =>
    rwa [issueCall_lcd h]

/-- A line that pushes lines leaves the attached LCD alone. -/
theorem lcd_of_pushSeq {s t : State} (h : ∃ prog, t = s.pushSeq prog) : t.env.lcd = s.env.lcd := by
  obtain ⟨prog, rfl⟩ := h
  rfl

theorem acceptKey_lcd (s : State) : (acceptKey s).env.lcd = s.env.lcd := by
  unfold acceptKey
  split
  · rfl
  · rfl

/-- Every line that is neither refused nor a status read keeps the display RAM canonical: the four bus lines by what an
LCD hears, the others not touching the attached LCD. -/
theorem lineTurn_ddram_wf {m : Micro} {s t : State} (h : lineTurn m s = .state t)
    (hs : Memory.wf s.env.lcd.ddram = true) : Memory.wf t.env.lcd.ddram = true := by
  cases m with
  | ctl | drive | release | delayBus => cases h; exact lcdHears_wf hs _ _ _
  | readStatus => rw [lineTurn, statusTurn_eq] at h; cases h
  | call c => obtain ⟨-, rfl⟩ := callTurn_state h; exact hs
  | pollUntil => cases h; rwa [lcd_of_pushSeq (pollUntil_eq_pushSeq s)]
  | writeText text => cases h; rwa [lcd_of_pushSeq (writeText_eq_pushSeq text s)]
  | confirmLoop => cases h; rwa [lcd_of_pushSeq (confirmLoop_eq_pushSeq s)]
  | releaseLoop => cases h; rwa [lcd_of_pushSeq (releaseLoop_eq_pushSeq s)]
  | accept => cases h; rwa [acceptKey_lcd]
  | markBusy => cases h; rwa [markBusy_env]
  | settleReady => cases h; rwa [settleReady_env]
  | sampleMask => cases h; rwa [sampleMask_lcd]
  | releaseSample => cases h; rwa [releaseSample_lcd]
  | delayScan | markReady | activateRow | clearCount | bumpCount | deactivateRow | advanceRow | scanDone | banner
  | mainLoop => cases h; exact hs

/-- An instruction that is a line's turn starts from the cells as they were: only the environment's answer is new. -/
theorem lineTurn_instr_ddram {m : Micro} {s u : State} {i : Instr} (h : lineTurn m s = .instr i u) :
    u.env.lcd.ddram = s.env.lcd.ddram := by
  cases m with
  | readStatus => rw [lineTurn, statusTurn_eq] at h; cases h; exact lcdAnswer_ddram s
  | call c =>
    simp only [lineTurn, callTurn] at h
    split at h <;> cases h
  | _ => cases h

/-- Settles O58: whosever turn the step is, what it runs keeps the canonical form. -/
theorem everyStepKeepsTheDisplayRamCanonical : Obligations.EveryStepKeepsTheDisplayRamCanonical := by
  intro s t hs h
  obtain ⟨w, -, hdevice⟩ | ⟨-, m, rest, -, hline⟩ | ⟨-, -, hhost⟩ := step_cases h
  · obtain ⟨i, -, hi⟩ | ⟨b, -, rfl⟩ | rfl := hdevice
    · exact exec_ddram_wf hi hs
    · exact lcdTake_wf _ _ (fun _ hd => hd) (fun _ hd => hd) hs
    · exact hs
  · obtain hstate | ⟨i, u, hu, hi⟩ := hline
    · exact lineTurn_ddram_wf hstate hs
    · exact exec_ddram_wf hi (by rwa [lineTurn_instr_ddram hu])
  · obtain ⟨-, rfl⟩ | ⟨c, rest, -, hc⟩ := hhost
    · exact hs
    · exact exec_ddram_wf hc hs

/-- Settles O59: no cell is listed at reset. -/
theorem resetDisplayRamIsBlank : Obligations.ResetDisplayRamIsBlank := ⟨Memory.wf_nil, Memory.read_nil⟩

/-! ### The trace grows by at most one event a step -/

theorem InstrEffect.trace_eq_or {s t : State} (h : InstrEffect s t) :
    t.trace = s.trace ∨ ∃ ev, t.trace = s.trace ++ [ev] := by
  cases h with
  | setLcd | pushSeq => exact .inl rfl
  | readData => exact .inr ⟨_, readData_trace s⟩
  | _ => exact .inr ⟨_, rfl⟩

theorem LineEffect.trace_eq_or {s t : State} {m : Micro} (h : LineEffect s m t) :
    t.trace = s.trace ∨ ∃ ev, t.trace = s.trace ++ [ev] := by
  cases h with
  | instr h => exact h.trace_eq_or
  | settleReady => exact .inl (settleReady_trace s)
  | markBusy => exact .inl (markBusy_trace s)
  | markReady | clearCount | bumpCount | advanceRow | scanDone => exact .inl rfl
  | sampleMask => exact .inr ⟨_, sampleMask_trace s⟩
  | releaseSample => exact .inr ⟨_, releaseSample_trace s⟩
  | delayScan | activateRow | key | deactivateRow => exact .inr ⟨_, rfl⟩

/-- Settles O28, by what the step can do. -/
theorem everyStepAddsAtMostOneEvent : Obligations.EveryStepAddsAtMostOneEvent := by
  intro s t h
  obtain ⟨q, e, hi⟩ | ⟨-, m, rest, -, hm⟩ := step_effect h
  · exact hi.trace_eq_or
  · exact hm.trace_eq_or

/-- Settles O6: the attached LCD's turn comes first. -/
theorem stepRunsTheByteTheLcdTook : Obligations.StepRunsTheByteTheLcdTook :=
  fun _ _ _ hl hd => step_device hl hd

/-! ### The pin word of a byte written -/

theorem decodePins_dataWrite (b : Byte) : decodePins (pinWord true false true b) = .ok (.data b) := by
  revert b; decide

theorem decodePins_instructionWrite (b : Byte) :
    decodePins (pinWord false false true b) = decodeLcdInstruction b := by
  revert b; decide

theorem instructionWrite_inj {b b' : Byte} (h : instructionWrite b = instructionWrite b') : b = b' := by
  have hd : ∀ b : Byte, (pinWord false false true b).extractLsb' 0 8 = b := by decide
  rw [← hd b, Encoded.pins.inj h, hd]

/-- Whether a transaction, where it carries an instruction, carries one that is presented as `e`. -/
def presentedAs (dec : Decoded) (e : Encoded) : Bool :=
  match dec with
  | .ok i => encode i == e
  | .rejected _ => true

theorem encode_of_presentedAs {dec : Decoded} {e : Encoded} {i : Instr} (h : presentedAs dec e = true)
    (hi : dec = .ok i) : encode i = e := by
  subst hi
  exact beq_iff_eq.mp h

/-- The instruction an instruction byte carries is presented as that byte (R84 to R89). -/
theorem encode_of_decodeLcdInstruction {b : Byte} {i : Instr} (h : decodeLcdInstruction b = .ok i) :
    encode i = instructionWrite b := by
  have hb : ∀ b : Byte, presentedAs (decodeLcdInstruction b) (instructionWrite b) = true := by decide
  exact encode_of_presentedAs (hb b) h

/-- An instruction byte that carries no instruction is outside the table, and is named as such (R99). -/
theorem decodeLcdInstruction_rejected {b : Byte} {why : DecodeError} (h : decodeLcdInstruction b = .rejected why) :
    why = .unassignedInstructionByte b := by
  unfold decodeLcdInstruction at h
  split_ifs at h <;> cases h <;> rfl

/-! ### What a byte does, by its decoding and by its value -/

/-- The spec says something of the LCD after the byte exactly where the by-value account does (R99, R264). -/
theorem lcdDescribed_accept_iff (rs : Bool) (b : Byte) (d : LcdDevice) :
    lcdDescribed (lcdAccept rs b d) = true ↔
      ¬(d.slips ≠ 0 ∨ functionSetFirst (d.log ++ [(rs, b)]) = false
        ∨ (d.log ++ [(rs, b)]).all (fun p => statedByte p.1 p.2) = false) := by
  simp [lcdDescribed, lcdAccept, functionSetLeads_eq, describedByte_eq, and_assoc]

theorem otherReceive_undescribed {rs : Bool} {b : Byte} {d : LcdDevice}
    (h : lcdDescribed (lcdAccept rs b d) = false) : otherReceive rs b d = lcdUndescribed (lcdAccept rs b d) := by
  unfold otherReceive
  exact if_pos ((lcdDescribed_accept_iff rs b d).not_left.mp (by simp [h]))

theorem otherReceive_data {b : Byte} {d : LcdDevice} (h : lcdDescribed (lcdAccept true b d) = true) :
    otherReceive true b d = lcdStore b (lcdAccept true b d) := by
  unfold otherReceive
  rw [if_neg ((lcdDescribed_accept_iff true b d).mp h)]
  rfl

/-- An instruction byte of an LCD other than RefLCD, by its value: R84 to R89 in falling order of the highest set bit,
clear-display and return-home before the rest. -/
theorem otherReceive_instruction {b : Byte} {d : LcdDevice} (h : lcdDescribed (lcdAccept false b d) = true) :
    otherReceive false b d =
      let logged := lcdAccept false b d
      if b = Config.opClearDisplay then lcdClear logged
      else if b = Config.opReturnHome ∨ b = (Config.opReturnHome ||| 1#8) then lcdPointAt 0#7 logged
      else if 0x80 ≤ b.toNat then lcdPointAt (BitVec.ofNat 7 b.toNat) logged
      else if 0x20 ≤ b.toNat then
        { logged with eightBit := b.getLsbD 4, twoLines := b.getLsbD 3, largeFont := b.getLsbD 2 }
      else if 0x08 ≤ b.toNat then
        { logged with displayOn := b.getLsbD 2, cursorOn := b.getLsbD 1, blinkOn := b.getLsbD 0 }
      else { logged with increment := b.getLsbD 1, shift := b.getLsbD 0 } := by
  unfold otherReceive
  rw [if_neg ((lcdDescribed_accept_iff false b d).mp h)]
  rfl

/-- The effects `f`, on the reference LCD, and `g`, on another LCD the spec describes, are those that the byte has by
its value (spec/20_memory.md R71, R72; spec/30_encoding.md R84 to R91). -/
def ActsByValue (rs : Bool) (b : Byte) (f g : LcdDevice → LcdDevice) : Prop :=
  ∀ d, f (lcdAccept rs b d) = refReceive rs b d
    ∧ (lcdDescribed (lcdAccept rs b d) = true → g (lcdAccept rs b d) = otherReceive rs b d)

/-- A byte taken with the effects of its value makes of the attached LCD what `receive` says. -/
theorem lcdTake_eq_receive {rs : Bool} {b : Byte} {f g : LcdDevice → LcdDevice} (h : ActsByValue rs b f g)
    (s : State) : lcdTake rs b f g s = s.setLcd (receive s.env.lcdParty rs b s.env.lcd) := by
  obtain ⟨href, hother⟩ := h s.env.lcd
  cases hp : s.env.lcdParty with
  | reference => rw [lcdTake_reference hp, href]; rfl
  | oracle answers =>
    cases hd : lcdDescribed (lcdAccept rs b s.env.lcd) with
    | true => rw [lcdTake_described hp hd, hother hd]; rfl
    | false => rw [lcdTake_undescribed hp hd, ← otherReceive_undescribed hd]; rfl

theorem actsByValue_data (b : Byte) : ActsByValue true b (refStore b) (lcdStore b) :=
  fun _ => ⟨rfl, fun hd => (otherReceive_data hd).symm⟩

theorem actsByValue_clearDisplay : ActsByValue false Config.opClearDisplay lcdClear lcdClear :=
  fun _ => ⟨rfl, fun hd => (otherReceive_instruction hd).symm⟩

theorem actsByValue_returnHome (x : Bool) :
    ActsByValue false (returnHomeByte x) (lcdPointAt 0#7) (lcdPointAt 0#7) := by
  refine fun d => ⟨?_, fun hd => ?_⟩
  · cases x <;> rfl
  · rw [otherReceive_instruction hd]
    cases x <;> rfl

theorem actsByValue_entryModeSet (i sh : Bool) :
    ActsByValue false (entryModeByte i sh) lcdLogged (fun e => { e with increment := i, shift := sh }) := by
  refine fun d => ⟨?_, fun hd => ?_⟩
  · cases i <;> cases sh <;> rfl
  · rw [otherReceive_instruction hd]
    cases i <;> cases sh <;> rfl

theorem actsByValue_displayControl (p c k : Bool) :
    ActsByValue false (displayControlByte p c k) lcdLogged
      (fun e => { e with displayOn := p, cursorOn := c, blinkOn := k }) := by
  refine fun d => ⟨?_, fun hd => ?_⟩
  · cases p <;> cases c <;> cases k <;> rfl
  · rw [otherReceive_instruction hd]
    cases p <;> cases c <;> cases k <;> rfl

/-- A function-set byte lies between 0x20 and 0x3F, and its fields are its bits (R88). -/
theorem functionSetByte_value (l n f : Bool) (x : BitVec 2) :
    0x20 ≤ (functionSetByte l n f x).toNat ∧ (functionSetByte l n f x).toNat < 0x40
      ∧ (functionSetByte l n f x).getLsbD 4 = l ∧ (functionSetByte l n f x).getLsbD 3 = n
      ∧ (functionSetByte l n f x).getLsbD 2 = f := by
  revert l n f x; decide

theorem setDdramAddrByte_value (a : BitVec 7) :
    0x80 ≤ (setDdramAddrByte a).toNat ∧ BitVec.ofNat 7 (setDdramAddrByte a).toNat = a := by
  revert a; decide

/-- No byte from 0x04 on is clear-display or return-home. -/
theorem ne_clear_home_of_le {b : Byte} (h : 0x04 ≤ b.toNat) :
    b ≠ Config.opClearDisplay ∧ ¬(b = Config.opReturnHome ∨ b = (Config.opReturnHome ||| 1#8)) := by
  revert b; decide

theorem actsByValue_functionSet (l n f : Bool) (x : BitVec 2) :
    ActsByValue false (functionSetByte l n f x) lcdLogged
      (fun e => { e with eightBit := l, twoLines := n, largeFont := f }) := by
  obtain ⟨hlo, hhi, hl, hn, hf⟩ := functionSetByte_value l n f x
  obtain ⟨hclear, hhome⟩ := ne_clear_home_of_le (b := functionSetByte l n f x) (by omega)
  have haddr : ¬0x80 ≤ (functionSetByte l n f x).toNat := by omega
  refine fun d => ⟨?_, fun hd => ?_⟩
  · simp [refReceive, lcdLogged, lcdAccept, hclear, hhome, haddr]
  · rw [otherReceive_instruction hd]
    simp only [if_neg hclear, if_neg hhome, if_neg haddr, if_pos hlo, hl, hn, hf]

theorem actsByValue_setDdramAddr (a : BitVec 7) :
    ActsByValue false (setDdramAddrByte a) (lcdPointAt a) (lcdPointAt a) := by
  obtain ⟨hlo, ha⟩ := setDdramAddrByte_value a
  obtain ⟨hclear, hhome⟩ := ne_clear_home_of_le (b := setDdramAddrByte a) (by omega)
  refine fun d => ⟨?_, fun hd => ?_⟩
  · simp [refReceive, lcdPointAt, lcdAccept, hclear, hhome, hlo, ha]
  · simp [otherReceive_instruction hd, hclear, hhome, hlo, ha]

/-- An instruction byte outside the table is 0x00 or lies in 0x10 to 0x1F or 0x40 to 0x7F: RefLCD has no effect for it
(R71), and the spec describes no other LCD after it (R99). -/
theorem actsByValue_unassigned {b : Byte} (h : decodeLcdInstruction b = .rejected (.unassignedInstructionByte b)) :
    ActsByValue false b lcdLogged lcdLogged := by
  have hvalue : ∀ b : Byte, decodeLcdInstruction b = .rejected (.unassignedInstructionByte b) →
      describedByte false b = false ∧ b ≠ Config.opClearDisplay
        ∧ ¬(b = Config.opReturnHome ∨ b = (Config.opReturnHome ||| 1#8)) ∧ ¬0x80 ≤ b.toNat := by decide
  obtain ⟨hdesc, hclear, hhome, haddr⟩ := hvalue b h
  refine fun d => ⟨?_, fun hd => ?_⟩
  · simp [refReceive, lcdLogged, lcdAccept, hclear, hhome, haddr]
  · simp [lcdDescribed, lcdAccept, hdesc] at hd

/-- An instruction that encodes to the byte `b` and acts by the value of its own byte acts by the value of `b`. -/
theorem lcdTake_eq_receive_of_encode {b b' : Byte} {f g : LcdDevice → LcdDevice}
    (hb : instructionWrite b' = instructionWrite b) (h : ActsByValue false b' f g) (s : State) :
    (Host.Outcome.next (lcdTake Config.rsInstr b' f g s) : Host.Outcome State Fault Refusal) =
      .next (s.setLcd (receive s.env.lcdParty false b s.env.lcd)) := by
  obtain rfl := instructionWrite_inj hb
  exact congrArg _ (lcdTake_eq_receive h s)

/-- The meaning of an instruction byte is what the byte does by its value. -/
theorem exec_eq_receive_of_decodeLcdInstruction {b : Byte} {i : Instr} (h : decodeLcdInstruction b = .ok i)
    (s : State) : exec i s = .next (s.setLcd (receive s.env.lcdParty false b s.env.lcd)) := by
  have hb := encode_of_decodeLcdInstruction h
  have hi := isLcdWrite_of_decodeLcdInstruction h
  cases i with
  | clearDisplay => exact lcdTake_eq_receive_of_encode hb actsByValue_clearDisplay s
  | returnHome x => exact lcdTake_eq_receive_of_encode hb (actsByValue_returnHome x) s
  | entryModeSet im sh => exact lcdTake_eq_receive_of_encode hb (actsByValue_entryModeSet im sh) s
  | displayControl p c k => exact lcdTake_eq_receive_of_encode hb (actsByValue_displayControl p c k) s
  | functionSet l n f x => exact lcdTake_eq_receive_of_encode hb (actsByValue_functionSet l n f x) s
  | setDdramAddr a => exact lcdTake_eq_receive_of_encode hb (actsByValue_setDdramAddr a) s
  | data d =>
    unfold decodeLcdInstruction at h
    split_ifs at h <;> cases h
  | _ => cases hi

theorem exec_data_eq_receive (b : Byte) (s : State) :
    exec (.data b) s = .next (s.setLcd (receive s.env.lcdParty true b s.env.lcd)) :=
  congrArg _ (lcdTake_eq_receive (actsByValue_data b) s)

/-- The meaning of a byte written, in either register, is what the byte does by its value. -/
theorem exec_eq_receive {rs : Bool} {b : Byte} {i : Instr} (h : decodePins (pinWord rs false true b) = .ok i)
    (s : State) : exec i s = .next (s.setLcd (receive s.env.lcdParty rs b s.env.lcd)) := by
  cases rs with
  | false => exact exec_eq_receive_of_decodeLcdInstruction (decodePins_instructionWrite b ▸ h) s
  | true =>
    rw [decodePins_dataWrite] at h
    cases h
    exact exec_data_eq_receive b s

/-- A byte written that carries no instruction is an instruction byte outside the table. -/
theorem decodePins_rejected {rs : Bool} {b : Byte} {why : DecodeError}
    (h : decodePins (pinWord rs false true b) = .rejected why) :
    rs = false ∧ why = .unassignedInstructionByte b ∧ decodeLcdInstruction b = .rejected why := by
  cases rs with
  | false =>
    rw [decodePins_instructionWrite] at h
    exact ⟨rfl, decodeLcdInstruction_rejected h, h⟩
  | true => rw [decodePins_dataWrite] at h; cases h

/-- The attached LCD's step on any byte written to it, one outside the table too. -/
theorem step_byteWritten {s : State} {rs : Bool} {b : Byte}
    (hl : s.env.lcd.latch = some (pinWord rs false true b)) :
    step s = .next (s.setLcd (receive s.env.lcdParty rs b { s.env.lcd with latch := none })) := by
  cases hd : decodePins (pinWord rs false true b) with
  | ok i => exact (step_device hl hd).trans (exec_eq_receive hd _)
  | rejected why =>
    obtain ⟨rfl, rfl, hb⟩ := decodePins_rejected hd
    simp only [step, nextTurn, hl, deviceTurn, hd]
    exact congrArg _ (lcdTake_eq_receive (actsByValue_unassigned hb) _)

/-- Settles O51: the effects each row of the table has are those of its byte's value. -/
theorem writtenBytesActOnTheLcd : Obligations.WrittenBytesActOnTheLcd :=
  fun s _ _ => ⟨fun _ hd => exec_eq_receive hd s, step_byteWritten⟩

/-! ### What each byte of the table does, field by field -/

/-- One more byte that the spec describes leaves it describing the LCD. -/
theorem lcdDescribed_accept_of {d : LcdDevice} (h : lcdDescribed d = true) {rs : Bool} {b : Byte}
    (hb : describedByte rs b = true) : lcdDescribed (lcdAccept rs b d) = true := by
  rw [lcdDescribed_accept rs b (lcdDescribed_log h), h, hb]
  rfl

/-- Another LCD than RefLCD, which the spec describes with the byte, does what the rule of the byte says. -/
theorem lcdTake_other {s : State} (hp : s.env.lcdParty ≠ .reference) {rs : Bool} {b : Byte}
    (hd : lcdDescribed (lcdAccept rs b s.env.lcd) = true) (f g : LcdDevice → LcdDevice) :
    lcdTake rs b f g s = s.setLcd (g (lcdAccept rs b s.env.lcd)) := by
  cases hparty : s.env.lcdParty with
  | reference => exact absurd hparty hp
  | oracle answers => exact lcdTake_described hparty hd f g

/-- A byte whose effect is the same on both LCDs has that effect where the spec describes the LCD. -/
theorem lcdTake_same {s : State} (h : s.env.lcdParty = .reference ∨ lcdDescribed s.env.lcd = true) {rs : Bool}
    {b : Byte} (hb : describedByte rs b = true) (f : LcdDevice → LcdDevice) :
    lcdTake rs b f f s = s.setLcd (f (lcdAccept rs b s.env.lcd)) := by
  by_cases hp : s.env.lcdParty = .reference
  · exact lcdTake_reference hp rs b f f
  · exact lcdTake_other hp (lcdDescribed_accept_of (h.resolve_left hp) hb) f f

/-- Settles O52: the effect is the same on both LCDs. -/
theorem clearDisplayBlanksEveryCell : Obligations.ClearDisplayBlanksEveryCell :=
  fun s h => ⟨s.setLcd (lcdClear (lcdAccept Config.rsInstr Config.opClearDisplay s.env.lcd)),
    congrArg _ (lcdTake_same h (by decide) lcdClear), Memory.read_nil, rfl⟩

theorem describedByte_returnHome (x : Bool) : describedByte Config.rsInstr (returnHomeByte x) = true := by
  revert x; decide

theorem describedByte_setDdramAddr (a : BitVec 7) : describedByte Config.rsInstr (setDdramAddrByte a) = true := by
  revert a; decide

theorem returnHomeByte_eq (x : Bool) : returnHomeByte x = if x then 0x03#8 else 0x02#8 := by
  revert x; decide

/-- Settles O53: neither instruction does anything to the device but log its byte, make it busy and move the
pointer. -/
theorem addressInstructionsMoveThePointer : Obligations.AddressInstructionsMoveThePointer := by
  intro s x a h
  constructor
  · rw [← returnHomeByte_eq]
    exact congrArg _ (lcdTake_same h (describedByte_returnHome x) (lcdPointAt 0#7))
  · exact congrArg _ (lcdTake_same h (describedByte_setDdramAddr a) (lcdPointAt a))

/-! ### The mode instructions (R86 to R88) -/

theorem entryModeByte_eq (i sh : Bool) :
    entryModeByte i sh = 0x04#8 ||| (if i then 2#8 else 0#8) ||| (if sh then 1#8 else 0#8) := by
  revert i sh; decide

theorem displayControlByte_eq (d c b : Bool) :
    displayControlByte d c b =
      0x08#8 ||| (if d then 4#8 else 0#8) ||| (if c then 2#8 else 0#8) ||| (if b then 1#8 else 0#8) := by
  revert d c b; decide

theorem functionSetByte_eq (l n f : Bool) (x : BitVec 2) :
    functionSetByte l n f x =
      0x20#8 ||| (if l then 16#8 else 0#8) ||| (if n then 8#8 else 0#8) ||| (if f then 4#8 else 0#8)
        ||| x.setWidth 8 := by
  revert l n f x; decide

theorem describedByte_entryModeSet (i sh : Bool) : describedByte Config.rsInstr (entryModeByte i sh) = true := by
  revert i sh; decide

theorem describedByte_displayControl (d c b : Bool) :
    describedByte Config.rsInstr (displayControlByte d c b) = true := by
  revert d c b; decide

theorem describedByte_functionSet (x : BitVec 2) :
    describedByte Config.rsInstr (functionSetByte true true true x) = true := by
  revert x; decide

theorem functionSetLeads_functionSet (x : BitVec 2) :
    functionSetLeads [(Config.rsInstr, functionSetByte true true true x)] = true := by
  revert x; decide

/-- A function-set with the document's settings leaves an LCD described that was, and one described that had no byte
before it (R264). -/
theorem lcdDescribed_functionSet {d : LcdDevice} (h : lcdDescribed d = true ∨ d.slips = 0 ∧ d.log = [])
    (x : BitVec 2) : lcdDescribed (lcdAccept Config.rsInstr (functionSetByte true true true x) d) = true := by
  obtain h | ⟨hslips, hlog⟩ := h
  · exact lcdDescribed_accept_of h (describedByte_functionSet x)
  · simp [lcdDescribed, lcdAccept, hslips, hlog, functionSetLeads_functionSet, describedByte_functionSet]

/-- What every LCD has after a byte with such effects, described or not: the byte in its log, the busy count started,
and the latch as it was. -/
theorem lcdTake_record (rs : Bool) (b : Byte) {f g : LcdDevice → LcdDevice} (s : State)
    (hf : ∀ d, (f d).log = d.log ∧ (f d).busyN = d.busyN ∧ (f d).latch = d.latch)
    (hg : ∀ d, (g d).log = d.log ∧ (g d).busyN = d.busyN ∧ (g d).latch = d.latch) :
    ∃ d, lcdTake rs b f g s = s.setLcd d ∧ d.log = s.env.lcd.log ++ [(rs, b)] ∧ d.busyN = s.env.lcd.busyLat
      ∧ d.latch = s.env.lcd.latch := by
  unfold lcdTake
  dsimp only
  split
  · exact ⟨_, rfl, hf _⟩
  · split
    · exact ⟨_, rfl, hg _⟩
    · exact ⟨_, rfl, rfl, rfl, rfl⟩

/-- Settles O54: the reference LCD logs the byte, another LCD that the spec describes with it writes the settings. -/
theorem modeInstructionsWriteTheirSettings : Obligations.ModeInstructionsWriteTheirSettings := by
  intro s p q r x entry display function taken hentry hdisplay hfunction htaken
  rw [← entryModeByte_eq] at hentry
  rw [← displayControlByte_eq] at hdisplay
  rw [← functionSetByte_eq] at hfunction
  obtain rfl : taken = fun b => lcdAccept Config.rsInstr b s.env.lcd := funext htaken
  subst hentry hdisplay hfunction
  refine ⟨fun hp => ⟨?_, ?_, ?_⟩, fun hp hd => ⟨?_, ?_⟩, fun hp hd hset => ?_, ?_⟩
  · exact congrArg _ (lcdTake_reference hp _ _ _ _)
  · exact congrArg _ (lcdTake_reference hp _ _ _ _)
  · exact congrArg _ (lcdTake_reference hp _ _ _ _)
  · exact congrArg _ (lcdTake_other hp (lcdDescribed_accept_of hd (describedByte_entryModeSet p q)) _ _)
  · exact congrArg _ (lcdTake_other hp (lcdDescribed_accept_of hd (describedByte_displayControl p q r)) _ _)
  · obtain ⟨rfl, rfl, rfl⟩ := hset
    exact congrArg _ (lcdTake_other hp (lcdDescribed_functionSet hd x) _ _)
  · obtain ⟨d, hd, hlog, hbusy, hlatch⟩ := lcdTake_record Config.rsInstr (functionSetByte p q r x) s
      (f := lcdLogged) (g := fun e => { e with eightBit := p, twoLines := q, largeFont := r })
      (fun _ => ⟨rfl, rfl, rfl⟩) (fun _ => ⟨rfl, rfl, rfl⟩)
    exact ⟨d, congrArg _ hd, hlog, hbusy, hlatch⟩

/-! ### A data byte (R72, R91) -/

/-- Before the last position of a line an incrementing pointer goes up by one (R86). -/
theorem nextAddress_toNat_up {d : LcdDevice} (hi : d.increment = true)
    (hc : d.ac.toNat % 64 + 1 < min 64 (d.cols.getD Config.lcdCols)) :
    (nextAddress d).toNat = d.ac.toNat + 1 := by
  obtain ⟨hline, hcols⟩ := lt_min_iff.mp hc
  rw [nextAddress_up hi hcols hline]
  bv_omega

/-- After the first position of a line a decrementing pointer goes down by one (R86). -/
theorem nextAddress_toNat_down {d : LcdDevice} (hi : d.increment = false) (hc : 0 < d.ac.toNat % 64) :
    (nextAddress d).toNat + 1 = d.ac.toNat := by
  rw [nextAddress_down hi hc]
  bv_omega

/-- An LCD other than RefLCD that the spec describes stores a data byte as `lcdStore` says. -/
theorem lcdTake_data_other {s : State} (hp : s.env.lcdParty ≠ .reference) (hd : lcdDescribed s.env.lcd = true)
    (b : Byte) : lcdTake Config.rsData b (refStore b) (lcdStore b) s =
      s.setLcd (lcdStore b (lcdAccept Config.rsData b s.env.lcd)) :=
  lcdTake_other hp (lcdDescribed_accept_of hd rfl) _ _

/-- Within the positions of a line such an LCD stores the byte at its address pointer, which then moves. -/
theorem lcdTake_data_within {s : State} (hp : s.env.lcdParty ≠ .reference) (hd : lcdDescribed s.env.lcd = true)
    (hcol : s.env.lcd.ac.toNat % 64 < s.env.lcd.cols.getD Config.lcdCols) (b : Byte) :
    lcdTake Config.rsData b (refStore b) (lcdStore b) s =
      s.setLcd
        { lcdAccept Config.rsData b s.env.lcd with
          ddram := Memory.write s.env.lcd.ddram s.env.lcd.ac.toNat b,
          ac := nextAddress (lcdAccept Config.rsData b s.env.lcd) } := by
  rw [lcdTake_data_other hp hd, lcdStore_within (d := lcdAccept Config.rsData b s.env.lcd) hcol]
  rfl

/-- Either LCD stores a data byte at the address pointer, another than RefLCD within the positions of a line. -/
theorem lcdTake_data_ddram {s : State} {b : Byte}
    (h : s.env.lcdParty = .reference ∨
      lcdDescribed s.env.lcd = true ∧ s.env.lcd.ac.toNat % 64 < s.env.lcd.cols.getD Config.lcdCols) :
    (lcdTake Config.rsData b (refStore b) (lcdStore b) s).env.lcd.ddram =
      Memory.write s.env.lcd.ddram s.env.lcd.ac.toNat b := by
  by_cases hp : s.env.lcdParty = .reference
  · rw [lcdTake_reference hp]
    rfl
  · obtain ⟨hd, hcol⟩ := h.resolve_left hp
    rw [lcdTake_data_within hp hd hcol]
    rfl

/-- Where the spec describes the LCD a data byte is logged, makes it busy, and changes the cells and the pointer. -/
theorem lcdTake_data_frame {s : State} (h : s.env.lcdParty = .reference ∨ lcdDescribed s.env.lcd = true) (b : Byte) :
    ∃ ac ddram, lcdTake Config.rsData b (refStore b) (lcdStore b) s =
      s.setLcd { lcdAccept Config.rsData b s.env.lcd with ac := ac, ddram := ddram } := by
  by_cases hp : s.env.lcdParty = .reference
  · exact ⟨_, _, lcdTake_reference hp _ _ _ _⟩
  · rw [lcdTake_data_other hp (h.resolve_left hp), lcdStore_frame]
    exact ⟨_, _, rfl⟩

/-- Settles O55: the cells by a read after a write, the pointer by the LCD attached, the rest by the frame. -/
theorem dataByteIsStoredAtThePointer : Obligations.DataByteIsStoredAtThePointer := by
  intro s b hwf
  refine ⟨_, rfl, fun h a => ?_, fun hp => ?_, fun hp hd hinc hcol => ?_, fun hp hd hdec hpos hcol => ?_, fun h => ?_⟩
  · rw [lcdTake_data_ddram h, Memory.read_write hwf]
  · rw [lcdTake_reference hp]
    exact BitVec.toNat_add s.env.lcd.ac 1#7
  · rw [lcdTake_data_within hp hd (by omega)]
    exact nextAddress_toNat_up (d := lcdAccept Config.rsData b s.env.lcd) hinc hcol
  · rw [lcdTake_data_within hp hd hcol]
    exact nextAddress_toNat_down (d := lcdAccept Config.rsData b s.env.lcd) hdec hpos
  · obtain ⟨ac, ddram, heq⟩ := lcdTake_data_frame h b
    rw [heq]
    rfl

/-! ### The reference keypad (R74) -/

/-- The matrix shown is the one at the cursor, the last one past the end of the script. -/
theorem scriptAt_of_getElem? {script : List KeyMatrix} {n : Nat} {m : KeyMatrix}
    (h : script[min n (script.length - 1)]? = some m) : scriptAt script n = m := by
  induction script, n using scriptAt.induct with
  | case1 n => simp at h
  | case2 m' n => simpa [scriptAt] using h
  | case3 m' m'' rest => simpa [scriptAt] using h
  | case4 m' m'' rest n ih =>
    rw [scriptAt]
    refine ih ?_
    simpa [Nat.add_min_add_right] using h

/-- A bit of an OR over the chosen ones of a list of words: it is set in the start or in a word chosen. -/
theorem getLsbD_foldl_or (p : Nat → Bool) (f : Nat → KeyWord) (l : List Nat) (acc : KeyWord) (c : Nat) :
    (l.foldl (fun acc r => if p r then acc ||| f r else acc) acc).getLsbD c =
      (acc.getLsbD c || l.any (fun r => p r && (f r).getLsbD c)) := by
  induction l generalizing acc with
  | nil => simp
  | cons r l ih =>
    rw [List.foldl_cons, ih, List.any_cons]
    cases p r with
    | false => simp
    | true => simp [Bool.or_assoc]

theorem matrixRow_getLsbD (m : KeyMatrix) (row : Nat) (c : Fin 5) :
    (matrixRow m row).getLsbD c.val = m.getLsbD (5 * row + c.val) := by
  simp [matrixRow, c.isLt]

/-- A column reads as set where a key of an active row is pressed in it. -/
theorem matrixColumns_getLsbD (m : KeyMatrix) (rowout : KeyWord) (c : Fin 5) :
    (matrixColumns m rowout).getLsbD c.val = true ↔
      ∃ r : Fin 5, rowout.getLsbD r.val = true ∧ m.getLsbD (5 * r.val + c.val) = true := by
  rw [matrixColumns, getLsbD_foldl_or]
  simp only [BitVec.getLsbD_zero, Bool.false_or, List.any_eq_true, List.mem_range, Bool.and_eq_true,
    matrixRow_getLsbD, Fin.exists_iff, exists_prop]

/-- The reference keypad's answer, and its next matrix. -/
theorem keyAnswer_reference {s : State} (h : s.env.keyParty = .reference) :
    keyAnswer s =
      (refKeyAnswer s,
        { s with env := { s.env with keypad := { s.env.keypad with cursor := s.env.keypad.cursor + 1 } } }) := by
  simp [keyAnswer, h]

/-- The sample the block keeps of the reference keypad's answer: the upper three bits masked off (R162). -/
theorem columnMask_refKeyAnswer (s : State) :
    columnMask (refKeyAnswer s) =
      matrixColumns (scriptAt s.env.keypad.script s.env.keypad.cursor) s.rowout := by
  have hmask : ∀ v : KeyWord, columnMask ((7#3 : BitVec 3) ++ v) = v := by decide
  exact hmask _

theorem refKeyAnswer_upper (s : State) : (refKeyAnswer s).extractLsb' 5 3 = 7#3 := by
  have hupper : ∀ v : KeyWord, ((7#3 : BitVec 3) ++ v).extractLsb' 5 3 = 7#3 := by decide
  exact hupper _

/-- Settles O43: the column mask of the answer, read bit by bit. -/
theorem referenceKeypadAnswersItsMatrix : Obligations.ReferenceKeypadAnswersItsMatrix := by
  intro s m c hp hm
  rw [sampleColumns, keyAnswer_reference hp]
  refine ⟨?_, refKeyAnswer_upper s, rfl, rfl⟩
  rw [columnMask_refKeyAnswer, scriptAt_of_getElem? hm]
  exact matrixColumns_getLsbD m s.rowout c

/-! ### The reference LCD over a whole write (R73) -/

theorem pinsIdle_iff (s : State) :
    s.pinsIdle = true ↔ s.rs = false ∧ s.rw = false ∧ s.e = false ∧ s.dout = 0#8 ∧ s.ddir = .input := by
  simp [State.pinsIdle, and_assoc]

theorem Reaches.of_eq {s t : State} (h : s = t) : Reaches s t := h ▸ .refl s

/-- The write cycle of spec/41_lcd_driver.md R131 up to the fall of `E`, at which the reference LCD takes the byte. -/
theorem writePulse_reference {s : State} {rs : Bool} {b : Byte} {after : List Micro} (hl : s.env.lcd.latch = none)
    (hs : s.seq = busWrite rs b ++ after) (hi : s.pinsIdle = true) (hp : s.env.lcdParty = .reference) :
    Reaches s
      { s with
        rs := rs, dout := b, ddir := .output, seq := [.delayBus 1, .release] ++ after,
        trace := s.trace ++ [.ctl rs false false, .drive b, .delayBus 1, .ctl rs false true, .delayBus 1,
          .ctl rs false false],
        env := { s.env with lcd := { s.env.lcd with latch := some (pinWord rs false true b) } } } := by
  obtain ⟨hrs, hrw, he, hdout, hddir⟩ := (pinsIdle_iff s).mp hi
  obtain ⟨rs₀, rw, e, dout, ddir, lcdst, row, rowout, mask, cnt, seq, poll, result, trace,
    ⟨program, lcdParty, keyParty, ⟨ac, ddram, busyN, busyLat, log, l, n, f, d, c, k, i, sh, latch, cols, settled, owed,
      slips⟩, keypad, dispatch, banner, draws⟩⟩ := s
  simp only at hl hs hrs hrw he hdout hddir hp
  subst hl hs hrs hrw he hdout hddir hp
  refine .line rfl rfl rfl (.line rfl rfl rfl (.line rfl rfl rfl ?_))
  refine .line rfl rfl rfl (.line rfl rfl rfl (.line rfl rfl rfl ?_))
  exact .of_eq (by simp [setControlLines, driveData, delayBus, State.emitBus, State.emit, State.setLcd, lcdHears,
    latchAfter, writePulseEnds, Config.rwWrite])

theorem latch_none_eq {d : LcdDevice} (h : d.latch = none) : { d with latch := none } = d := by
  rw [← h]

theorem refReceive_latch (rs : Bool) (b : Byte) (d : LcdDevice) : (refReceive rs b d).latch = d.latch :=
  receive_latch .reference rs b d

/-- The write cycle with the reference LCD attached, which acts on the byte it took at the fall of `E`: `RS` is left as
it was set, the other pins are idle again. -/
theorem busWrite_reference {s : State} {rs : Bool} {b : Byte} {after : List Micro} (hl : s.env.lcd.latch = none)
    (hs : s.seq = busWrite rs b ++ after) (hi : s.pinsIdle = true) (hp : s.env.lcdParty = .reference) :
    Reaches s
      { s with
        rs := rs, seq := after, trace := s.trace ++ writeTrace rs b,
        env := { s.env with lcd := refReceive rs b s.env.lcd } } := by
  have hr : (refReceive rs b s.env.lcd).latch = none := (refReceive_latch rs b s.env.lcd).trans hl
  obtain ⟨-, -, -, hdout, hddir⟩ := (pinsIdle_iff s).mp hi
  refine (writePulse_reference hl hs hi hp).trans (.head (step_byteWritten rfl) ?_)
  simp only [receive, hp, latch_none_eq hl]
  refine .line hr rfl rfl (.line (by simpa [hp, lcdHears_reference] using hr) rfl rfl ?_)
  exact .of_eq (by simp [releaseData, delayBus, State.emitBus, State.emit, State.setLcd, lcdHears_reference, writeTrace,
    hdout, hddir])

theorem busyFlag_statusByte (b : Bool) (a : BitVec 7) : busyFlag (statusByte b a) = b := by
  revert b a; decide

/-- One poll of the reference LCD (R73): busy as long as its count is not used up, which goes down by one. -/
theorem poll_round_reference {s : State} {after : List Micro} (hl : s.env.lcd.latch = none)
    (hs : s.seq = pollBody ++ after) (hrs : s.rs = false) (hrw : s.rw = true) (he : s.e = false)
    (hd : s.ddir = .input) (hp : s.env.lcdParty = .reference) :
    Reaches s
      { s with
        trace := s.trace ++ pollTrace (statusByte (decide (0 < s.env.lcd.busyN)) s.env.lcd.ac),
        poll := statusByte (decide (0 < s.env.lcd.busyN)) s.env.lcd.ac,
        seq := if 0 < s.env.lcd.busyN then s.seq else after,
        env := { s.env with lcd := { s.env.lcd with busyN := s.env.lcd.busyN - 1 } } } := by
  obtain ⟨rs, rw, e, dout, ddir, lcdst, row, rowout, mask, cnt, seq, poll, result, trace,
    ⟨program, lcdParty, keyParty, ⟨ac, ddram, busyN, busyLat, log, l, n, f, d, c, k, i, sh, latch, cols, settled, owed,
      slips⟩, keypad, dispatch, banner, draws⟩⟩ := s
  simp only at hl hs hrs hrw he hd hp
  subst hl hs hrs hrw he hd hp
  refine .line rfl rfl rfl (.line rfl rfl rfl (.head (step_readStatus rfl rfl) ?_))
  refine .line rfl rfl rfl (.line rfl rfl rfl (.line rfl rfl rfl ?_))
  refine .of_eq ?_
  by_cases hb : 0 < busyN <;>
    simp [pollUntil, readStatus, takeSample, setControlLines, delayBus, State.emitBus, State.emit, lcdAnswer,
      latchAfter, writePulseEnds, State.pushSeq, State.setLcd, pollTrace, lcdHears, refLcdAnswer, refLcdAnswered,
      Config.rsInstr, Config.rwRead, busyFlag_statusByte, hb]

/-- The status bytes of the reference LCD until it is ready (R73). -/
def refAnswers (d : LcdDevice) : List Byte := List.replicate d.busyN (statusByte true d.ac) ++ [statusByte false d.ac]

/-- The poll loop with the reference LCD: one busy answer for each count, then a ready one. -/
theorem polls_reference {s : State} {after : List Micro} (hl : s.env.lcd.latch = none)
    (hs : s.seq = pollBody ++ after) (hrs : s.rs = false) (hrw : s.rw = true) (he : s.e = false)
    (hd : s.ddir = .input) (hp : s.env.lcdParty = .reference) :
    Reaches s
      { s with
        trace := s.trace ++ (refAnswers s.env.lcd).flatMap pollTrace, poll := statusByte false s.env.lcd.ac,
        seq := after, env := { s.env with lcd := { s.env.lcd with busyN := 0 } } } := by
  generalize hn : s.env.lcd.busyN = n
  induction n generalizing s with
  | zero => exact (poll_round_reference hl hs hrs hrw he hd hp).trans (.of_eq (by simp [refAnswers, hn]))
  | succ n ih =>
    refine (poll_round_reference hl hs hrs hrw he hd hp).trans
      ((ih (by exact hl) (by simp [hn, hs]) (by exact hrs) (by exact hrw) (by exact he) (by exact hd) (by exact hp)
        (by simp [hn])).trans (.of_eq ?_))
    simp [refAnswers, hn, List.replicate_succ]

theorem settleReady_eq (s : State) :
    settleReady s = { s with lcdst := if s.lcdst = .busy then .ready else s.lcdst } := by
  unfold settleReady
  split
  · rfl
  · rfl

/-- A wait on the reference LCD from released data lines and write mode (spec/41_lcd_driver.md R133). -/
theorem waitReady_reference {s : State} {after : List Micro} (hl : s.env.lcd.latch = none)
    (hs : s.seq = waitReadyLines ++ after) (hrw : s.rw = false) (he : s.e = false)
    (hd : s.ddir = .input) (hp : s.env.lcdParty = .reference) :
    Reaches s
      { s with
        rs := false, lcdst := if s.lcdst = .busy then .ready else s.lcdst,
        trace := s.trace ++ waitTrace (refAnswers s.env.lcd), poll := statusByte false s.env.lcd.ac,
        seq := after, env := { s.env with lcd := { s.env.lcd with busyN := 0 } } } := by
  obtain ⟨rs, rw, e, dout, ddir, lcdst, row, rowout, mask, cnt, seq, poll, result, trace,
    ⟨program, lcdParty, keyParty, ⟨ac, ddram, busyN, busyLat, log, l, n, f, d, c, k, i, sh, latch, cols, settled, owed,
      slips⟩, keypad, dispatch, banner, draws⟩⟩ := s
  simp only at hl hs hrw he hd hp
  subst hl hs hrw he hd hp
  refine .line rfl rfl rfl (.line rfl rfl rfl ?_)
  refine (polls_reference rfl rfl rfl rfl rfl rfl rfl).trans ?_
  refine .line rfl rfl rfl (.line rfl rfl rfl (.of_eq ?_))
  simp [settleReady_eq, setControlLines, delayBus, State.emitBus, State.emit, State.setLcd, lcdHears, latchAfter,
    writePulseEnds, waitTrace, Config.rsInstr, Config.rwRead, Config.rwWrite]

/-- A write and its wait on the reference LCD from the idle pin state (spec/41_lcd_driver.md R134, R135). -/
theorem writeLines_reference {s : State} {rs : Bool} {b : Byte} {after : List Micro} (hl : s.env.lcd.latch = none)
    (hs : s.seq = writeLines rs b ++ after) (hi : s.pinsIdle = true) (hr : s.lcdst = .ready)
    (hp : s.env.lcdParty = .reference) :
    Reaches s
      { s with
        trace := s.trace ++ writeTrace rs b ++ waitTrace (refAnswers (refReceive rs b s.env.lcd)),
        poll := statusByte false (refReceive rs b s.env.lcd).ac, seq := after,
        env := { s.env with lcd := { refReceive rs b s.env.lcd with busyN := 0 } } } := by
  obtain ⟨hrs, hrw, he, -, hd⟩ := (pinsIdle_iff s).mp hi
  have hlatch : (refReceive rs b s.env.lcd).latch = none := (refReceive_latch rs b s.env.lcd).trans hl
  refine (busWrite_reference hl (by rw [hs, writeLines, List.append_assoc, List.append_assoc]) hi hp).trans ?_
  refine .line hlatch rfl rfl ?_
  simp only [markBusy, hr, if_true]
  refine (waitReady_reference (after := after) (by exact hlatch) (by rfl) (by exact hrw) (by exact he) (by exact hd)
    (by exact hp)).trans (.of_eq ?_)
  simp [hrs]

/-- Settles O24: the write takes the byte, the count it starts at is `BUSY_LAT`, and the wait uses it up. -/
theorem referenceLcdIsBusyForItsLatency : Obligations.ReferenceLcdIsBusyForItsLatency := by
  intro s b hi hr hl hp
  have hentry : entryRefusal (.writeData b) s = none :=
    (entryRefusal_none_iff (.writeData b) s).mpr ⟨rfl, hi, fun _ => by simp [hr]⟩
  have hrun := writeLines_reference (s := s.pushSeq (callLines (.writeData b) ++ [])) (rs := true) (b := b)
    (after := s.seq) hl (by simp [callLines, Config.rsData]) hi hr hp
  exact ⟨_, ⟨⟨_, issueCall_of_entry [] hentry, hrun⟩, rfl⟩, hr, rfl, rfl, rfl⟩

end Sys2Proof.Machine

/-! The encodings of spec/30_encoding.md: a command word in its two fields, what the command decoder can answer, and
each instruction read back from its words. -/

namespace Sys2Proof.Machine

/-! ### The two fields of a command word (R95) -/

@[simp] theorem opField_commandWord (op : BitVec 4) (arg : Byte) : opField (commandWord op arg) = op :=
  BitVec.extractLsb'_append_eq_left

@[simp] theorem argField_commandWord (op : BitVec 4) (arg : Byte) : argField (commandWord op arg) = arg :=
  BitVec.extractLsb'_append_eq_right

theorem commandWord_fields (w : BitVec 12) : commandWord (opField w) (argField w) = w :=
  (BitVec.extractLsb'_append_extractLsb'_eq_extractLsb' (start₁ := 0) (len₁ := 8) rfl).trans
    BitVec.extractLsb'_eq_self

/-! ### The rows of the command map, by what their `arg` field fixes (R96) -/

/-- The rows whose `arg` field fixes all its bits at zero. -/
def fixedArgOps : List (BitVec 4) := [0x2#4, 0x3#4, 0x5#4, 0x8#4, 0xB#4, 0xC#4, 0xE#4]

/-- The rows whose `arg` field fixes no bit. -/
def freeArgOps : List (BitVec 4) := [0x1#4, 0x4#4, 0x6#4, 0x7#4, 0xA#4]

theorem op_rows (op : BitVec 4) :
    op = 0xF#4 ∨ op = 0x0#4 ∨ op = 0x9#4 ∨ op = 0xD#4 ∨ op ∈ fixedArgOps ∨ op ∈ freeArgOps := by
  revert op; decide

/-- The words item (1) of R98 lists, by their fields. -/
theorem isReservedWord_commandWord (op : BitVec 4) (arg : Byte) :
    isReservedWord (commandWord op arg) = true ↔
      op = 0xF#4
        ∨ op = 0x0#4 ∧ arg.extractLsb' 3 5 ≠ 0#5
        ∨ op = 0x9#4 ∧ arg.extractLsb' 1 7 ≠ 0#7
        ∨ op = 0xD#4 ∧ arg.extractLsb' 5 3 ≠ 0#3
        ∨ op ∈ fixedArgOps ∧ arg ≠ 0#8 := by
  have hop : (commandWord op arg).extractLsb' 8 4 = op := opField_commandWord op arg
  have harg : (commandWord op arg).extractLsb' 0 8 = arg := argField_commandWord op arg
  simp [isReservedWord, fixedArgOps, hop, harg, or_assoc]

/-! ### The arguments with fixed bits (R97) -/

theorem controlArg_fields (rs rw e : Bool) :
    (controlArg rs rw e).extractLsb' 3 5 = 0#5 ∧ (controlArg rs rw e).getLsbD 2 = rs
      ∧ (controlArg rs rw e).getLsbD 1 = rw ∧ (controlArg rs rw e).getLsbD 0 = e := by
  revert rs rw e; decide

theorem controlArg_of_fixedBits {arg : Byte} (h : arg.extractLsb' 3 5 = 0#5) :
    controlArg (arg.getLsbD 2) (arg.getLsbD 1) (arg.getLsbD 0) = arg := by
  revert arg; decide

theorem lineArg_of_fixedBits {arg : Byte} (h : arg.extractLsb' 1 7 = 0#7) :
    BitVec.ofNat 8 ((arg.getLsbD 0).toNat % 2) = arg := by
  revert arg; decide

theorem keyArg_of_fixedBits {arg : Byte} (h : arg.extractLsb' 5 3 = 0#3) : 0#3 ++ arg.extractLsb' 0 5 = arg := by
  revert arg; decide

/-! ### What the command decoder can answer (R96, R98) -/

theorem decodeCommand_controlRow {arg : Byte} (h : arg.extractLsb' 3 5 = 0#5) (text : List Byte) :
    decodeCommand ⟨commandWord 0x0#4 arg, text⟩ =
      .setControlLines (arg.getLsbD 2) (arg.getLsbD 1) (arg.getLsbD 0) := by
  simp [decodeCommand, h]

theorem decodeCommand_lineRow {arg : Byte} (h : arg.extractLsb' 1 7 = 0#7) (text : List Byte) :
    decodeCommand ⟨commandWord 0x9#4 arg, text⟩ = .writeLine (arg.getLsbD 0).toNat text := by
  simp [decodeCommand, h]

theorem decodeCommand_keyRow {arg : Byte} (h : arg.extractLsb' 5 3 = 0#3) (text : List Byte) :
    decodeCommand ⟨commandWord 0xD#4 arg, text⟩ = .keyEvent (arg.extractLsb' 0 5) := by
  simp [decodeCommand, h]

theorem decodeCommand_of_isReservedWord {c : HostCommand} (h : isReservedWord c.word = true) :
    decodeCommand c = .reserved c.word := by
  obtain ⟨w, text⟩ := c
  obtain ⟨op, arg, rfl⟩ : ∃ op arg, w = commandWord op arg := ⟨_, _, (commandWord_fields w).symm⟩
  obtain rfl | ⟨rfl, harg⟩ | ⟨rfl, harg⟩ | ⟨rfl, harg⟩ | ⟨hop, harg⟩ := (isReservedWord_commandWord op arg).mp h
  · simp [decodeCommand]
  · simp [decodeCommand, harg]
  · simp [decodeCommand, harg]
  · simp [decodeCommand, harg]
  · simp only [fixedArgOps, List.mem_cons, List.not_mem_nil, or_false] at hop
    obtain rfl | rfl | rfl | rfl | rfl | rfl | rfl := hop <;> simp [decodeCommand, harg]

/-- `i` is one of the instructions of R96 and its words are those of `c`, with the text of `c` or with none. -/
structure Presents (c : HostCommand) (i : Instr) : Prop where
  meaningful : i ≠ .reserved c.word
  words : encode i = .command ⟨c.word, []⟩ ∨ encode i = .command c

theorem presents_of_fixedArgOps {op : BitVec 4} (hop : op ∈ fixedArgOps) (text : List Byte) :
    Presents ⟨commandWord op 0#8, text⟩ (decodeCommand ⟨commandWord op 0#8, text⟩) := by
  simp only [fixedArgOps, List.mem_cons, List.not_mem_nil, or_false] at hop
  obtain rfl | rfl | rfl | rfl | rfl | rfl | rfl := hop <;>
    simp only [decodeCommand, opField_commandWord, argField_commandWord, if_true] <;> exact ⟨nofun, .inl rfl⟩

theorem presents_of_freeArgOps {op : BitVec 4} (hop : op ∈ freeArgOps) (arg : Byte) (text : List Byte) :
    Presents ⟨commandWord op arg, text⟩ (decodeCommand ⟨commandWord op arg, text⟩) := by
  simp only [freeArgOps, List.mem_cons, List.not_mem_nil, or_false] at hop
  obtain rfl | rfl | rfl | rfl | rfl := hop <;>
    simp only [decodeCommand, opField_commandWord, argField_commandWord] <;> exact ⟨nofun, .inl rfl⟩

/-- A word that is not a reserved one is that of the instruction it decodes to. -/
theorem presents_decodeCommand {c : HostCommand} (h : isReservedWord c.word ≠ true) : Presents c (decodeCommand c) := by
  obtain ⟨w, text⟩ := c
  obtain ⟨op, arg, rfl⟩ : ∃ op arg, w = commandWord op arg := ⟨_, _, (commandWord_fields w).symm⟩
  replace h := mt (isReservedWord_commandWord op arg).mpr h
  obtain rfl | rfl | rfl | rfl | hop | hop := op_rows op
  · simp at h
  · have harg : arg.extractLsb' 3 5 = 0#5 := by simpa [fixedArgOps] using h
    rw [decodeCommand_controlRow harg]
    exact ⟨nofun, .inl (congrArg (plainCommand 0x0#4) (controlArg_of_fixedBits harg))⟩
  · have harg : arg.extractLsb' 1 7 = 0#7 := by simpa [fixedArgOps] using h
    rw [decodeCommand_lineRow harg]
    exact ⟨nofun, .inr (by rw [encode, lineArg_of_fixedBits harg])⟩
  · have harg : arg.extractLsb' 5 3 = 0#3 := by simpa [fixedArgOps] using h
    rw [decodeCommand_keyRow harg]
    exact ⟨nofun, .inl (congrArg (plainCommand 0xD#4) (keyArg_of_fixedBits harg))⟩
  · obtain rfl : arg = 0#8 := by
      by_contra harg
      exact h (.inr (.inr (.inr (.inr ⟨hop, harg⟩))))
    exact presents_of_fixedArgOps hop text
  · exact presents_of_freeArgOps hop arg text

/-- Settles O3: a reserved word has the reserved row, and every other word an instruction of R96. -/
theorem reservedWordsAreExactlyThoseListed : Obligations.ReservedWordsAreExactlyThoseListed := by
  refine fun c => ⟨fun h => ?_, decodeCommand_of_isReservedWord⟩
  by_contra hw
  exact (presents_decodeCommand hw).meaningful h

/-- Settles O2: the reserved row keeps its word, and every other word is that of its instruction. -/
theorem encodeWritesBackEveryCommandWord : Obligations.EncodeWritesBackEveryCommandWord := by
  intro w
  by_cases hw : isReservedWord w = true
  · exact congrArg encode (decodeCommand_of_isReservedWord (c := ⟨w, []⟩) hw)
  · obtain h | h := (presents_decodeCommand (c := ⟨w, []⟩) hw).words
    · exact h
    · exact h

/-! ### Each instruction read back from its words -/

theorem decode_plainCommand (op : BitVec 4) (arg : Byte) :
    decode (plainCommand op arg) = .ok (decodeCommand ⟨commandWord op arg, []⟩) := rfl

theorem decode_instructionWrite (b : Byte) : decode (instructionWrite b) = decodeLcdInstruction b :=
  decodePins_instructionWrite b

/-- The line index of a text is read back (R97). -/
theorem decode_encode_writeLine {lineIndex : Nat} (h : lineIndex < 2) (text : List Byte) :
    decode (encode (.writeLine lineIndex text)) = .ok (.writeLine lineIndex text) := by
  obtain rfl | rfl : lineIndex = 0 ∨ lineIndex = 1 := by omega
  · exact congrArg Decoded.ok (decodeCommand_lineRow (by decide) text)
  · exact congrArg Decoded.ok (decodeCommand_lineRow (by decide) text)

/-- The bits of a key code are read back, those above 24 too (R96). -/
theorem decode_encode_keyEvent (k : BitVec 5) : decode (encode (.keyEvent k)) = .ok (.keyEvent k) := by
  have hfixed : (0#3 ++ k).extractLsb' 5 3 = 0#3 := BitVec.extractLsb'_append_eq_left
  have hkey : (0#3 ++ k).extractLsb' 0 5 = k := BitVec.extractLsb'_append_eq_right
  rw [encode, decode_plainCommand, decodeCommand_keyRow hfixed, hkey]

theorem decode_encode_status (b : Bool) (a : BitVec 7) :
    decode (encode (.status b a)) = .ok (.status b a) := by
  have hb : (statusByte b a).getLsbD 7 = b := by revert b a; decide
  have ha : (statusByte b a).extractLsb' 0 7 = a := BitVec.extractLsb'_append_eq_right
  exact (decodePins_status (statusByte b a)).trans (by rw [hb, ha])

/-! The instruction bytes of R85 to R89, each read back by its highest set bit. -/

theorem decodeLcdInstruction_returnHomeByte (x : Bool) :
    decodeLcdInstruction (returnHomeByte x) = .ok (.returnHome x) := by
  revert x; decide

theorem decodeLcdInstruction_entryModeByte (i s : Bool) :
    decodeLcdInstruction (entryModeByte i s) = .ok (.entryModeSet i s) := by
  revert i s; decide

theorem decodeLcdInstruction_displayControlByte (d c b : Bool) :
    decodeLcdInstruction (displayControlByte d c b) = .ok (.displayControl d c b) := by
  revert d c b; decide

theorem decodeLcdInstruction_functionSetByte (l n f : Bool) (x : BitVec 2) :
    decodeLcdInstruction (functionSetByte l n f x) = .ok (.functionSet l n f x) := by
  revert l n f x; decide

theorem decodeLcdInstruction_setDdramAddrByte (a : BitVec 7) :
    decodeLcdInstruction (setDdramAddrByte a) = .ok (.setDdramAddr a) := by
  revert a; decide

/-- Settles O1, row by row of the opcode table. -/
theorem decodeReadsBackEveryEncoding : Obligations.DecodeReadsBackEveryEncoding := by
  intro i hi
  cases i with
  | setControlLines rs rw e =>
    obtain ⟨hfixed, hrs, hrw, he⟩ := controlArg_fields rs rw e
    rw [encode, decode_plainCommand, decodeCommand_controlRow hfixed, hrs, hrw, he]
  | driveData arg | delayBus arg | writeInstruction arg | writeData arg | writeChar arg =>
    simp [encode, decode_plainCommand, decodeCommand]
  | readData | releaseData | waitReady | initializeLcd | clear | scanCycle | startup => rfl
  | writeLine lineIndex text =>
    simp only [Instr.wellFormed, Bool.and_eq_true, decide_eq_true_eq] at hi
    obtain ⟨hline, -⟩ := hi
    exact decode_encode_writeLine hline text
  | keyEvent k => exact decode_encode_keyEvent k
  | reserved w => exact congrArg Decoded.ok (decodeCommand_of_isReservedWord (c := ⟨w, []⟩) hi)
  | clearDisplay => rfl
  | returnHome x => exact (decode_instructionWrite _).trans (decodeLcdInstruction_returnHomeByte x)
  | entryModeSet i s => exact (decode_instructionWrite _).trans (decodeLcdInstruction_entryModeByte i s)
  | displayControl d c b => exact (decode_instructionWrite _).trans (decodeLcdInstruction_displayControlByte d c b)
  | functionSet l n f x => exact (decode_instructionWrite _).trans (decodeLcdInstruction_functionSetByte l n f x)
  | setDdramAddr a => exact (decode_instructionWrite _).trans (decodeLcdInstruction_setDdramAddrByte a)
  | status b a => exact decode_encode_status b a
  | data d => exact decodePins_dataWrite d

/-! ### The spec's own words, and the refusal of a reserved one -/

/-- Settles O4: the command words by evaluation, the LCD's bytes by the register that `RS` and `RW` choose (R82). -/
theorem specWordsDecode : Obligations.SpecWordsDecode :=
  ⟨rfl, rfl, rfl, rfl, rfl,
    decodePins_instructionWrite 0x3C#8, decodePins_instructionWrite 0x0C#8, decodePins_instructionWrite 0x06#8,
    decodePins_instructionWrite 0xC0#8, decodePins_status 0x83#8, decodePins_dataWrite 0x68#8⟩

/-- Settles O50: the reserved row's meaning is the refusal, whatever the word and the state. -/
theorem reservedCommandsAreRefused : Obligations.ReservedCommandsAreRefused := fun _ _ => rfl

end Sys2Proof.Machine

/-! The bus transaction primitive of spec/40_bus_primitive.md: the words of its five operations, what a sample of the
data bus takes from the environment, and the whole state after each operation. -/

namespace Sys2Proof.Machine

/-! ### The byte an LCD is given (R110, R131) -/

/-- `RS` is held through the pulse, so the byte is taken under the level the lines have afterwards too. -/
theorem latchAfter_eq (s : State) (rs rw e : Bool) :
    latchAfter s rs rw e =
      if s.e = true ∧ e = false ∧ s.rw = false ∧ rw = false ∧ rs = s.rs ∧ s.ddir = .output then
        some (pinWord rs false true s.dout)
      else s.env.lcd.latch := by
  have hends := writePulseEnds_iff s rs rw e
  rw [latchAfter]
  split
  case isTrue h =>
    obtain ⟨he, he', hrw, hrw', hrs, hdir⟩ := hends.mp h
    rw [if_pos ⟨he, he', hrw, hrw', hrs, hdir⟩, hrs]
  case isFalse h => rw [if_neg (mt hends.mpr h)]

/-! ### What a sample takes from the environment (R68, R73, R112) -/

theorem lcdAnswer_reference {s : State} (h : s.env.lcdParty = .reference) :
    lcdAnswer s = (refLcdAnswer s, s.setLcd (refLcdAnswered s)) := by
  simp [lcdAnswer, h]

theorem lcdAnswer_given {s : State} {b : Byte} {rest : List Byte} (h : s.env.lcdParty = .oracle (b :: rest)) :
    lcdAnswer s = (b, { s with env := { s.env with lcdParty := .oracle rest } }) := by
  simp [lcdAnswer, h]

theorem lcdAnswer_free {s : State} (h : s.env.lcdParty = .oracle []) :
    lcdAnswer s =
      (Config.lcdOracle s.env.draws s.rs s.rw s.e, { s with env := { s.env with draws := s.env.draws + 1 } }) := by
  simp [lcdAnswer, h]

/-- Of the reference LCD an answer changes the count of busy reads alone (R73). -/
theorem refLcdAnswered_frame (s : State) :
    refLcdAnswered s = { s.env.lcd with busyN := (refLcdAnswered s).busyN } := by
  unfold refLcdAnswered
  split
  case isTrue => rfl
  case isFalse => rfl

/-- An environment that answers of itself leaves the attached LCD to hear the sample only. -/
theorem readData_of_oracle {s : State} {b : Byte} {p q : List Byte} {n : Nat} (hp : s.env.lcdParty = .oracle p)
    (h : lcdAnswer s = (b, { s with env := { s.env with lcdParty := .oracle q, draws := n } })) :
    readData s =
      { s with
        ddir := .input, result := b, trace := s.trace ++ [.sample b],
        env :=
          { s.env with
            lcdParty := .oracle q, draws := n,
            lcd := lcdHears s.busView (.sample b) s.env.lcdParty s.env.lcd } } := by
  rw [readData, h, hp]
  rfl

theorem readData_of_reference {s : State} (h : s.env.lcdParty = .reference) :
    readData s =
      { s with
        ddir := .input, result := refLcdAnswer s, trace := s.trace ++ [.sample (refLcdAnswer s)],
        env := { s.env with lcd := refLcdAnswered s } } := by
  rw [readData, lcdAnswer_reference h]
  simp [takeSample, State.emitBus, State.emit, State.setLcd, h, lcdHears_reference]

/-! ### The release of a neutral bus (R113) -/

/-- An event that the attached LCD makes nothing of is only appended to the trace. -/
theorem emitBus_of_lcdHears_same {s : State} {ev : Event}
    (h : lcdHears s.busView ev s.env.lcdParty s.env.lcd = s.env.lcd) : s.emitBus ev = s.emit ev := by
  rw [State.emitBus, h]
  rfl

theorem releaseData_neutral {s : State} (hdout : s.dout = 0x00#8) (hddir : s.ddir = .input) :
    releaseData s = s.emit .release := by
  rw [releaseData, emitBus_of_lcdHears_same (lcdHears_release_neutral hddir _), ← hdout, ← hddir]
  rfl

/-! ### The five operations -/

theorem exec_setControlLines (rs rw e : Bool) (s : State) :
    exec (.setControlLines rs rw e) s = .next (setControlLines rs rw e s) := rfl

theorem exec_driveData (b : Byte) (s : State) : exec (.driveData b) s = .next (driveData b s) := rfl

theorem exec_readData (s : State) : exec .readData s = .next (readData s) := rfl

theorem exec_releaseData (s : State) : exec .releaseData s = .next (releaseData s) := rfl

theorem exec_delayBus (n : Byte) (s : State) : exec (.delayBus n) s = .next (delayBus n.toNat s) := rfl

/-- Settles O11, by who answers: the environment with its next answer or with a free value, or the reference LCD. -/
theorem readDataSamplesOneByte : Obligations.ReadDataSamplesOneByte := by
  intro s
  rw [exec_readData]
  cases hp : s.env.lcdParty with
  | reference =>
    rw [readData_of_reference hp]
    exact ⟨_, _, rfl, rfl, rfl, fun _ => refLcdAnswered_frame s, fun h => absurd rfl h, nofun⟩
  | oracle answers =>
    cases answers with
    | nil =>
      rw [readData_of_oracle (q := []) hp (by rw [lcdAnswer_free hp, ← hp])]
      exact ⟨_, _, rfl, rfl, rfl, nofun, fun _ => lcdHears_hears s _, nofun⟩
    | cons b rest =>
      rw [readData_of_oracle hp (lcdAnswer_given hp)]
      refine ⟨_, _, rfl, rfl, rfl, nofun, fun _ => lcdHears_hears s _, fun x rest' h => ?_⟩
      obtain ⟨rfl, rfl⟩ : b = x ∧ rest = rest' := by simpa using h
      exact ⟨rfl, rfl, rfl⟩

/-- Settles O9: the lines and the event by the operation, what the LCD has taken by the end of a write pulse. -/
theorem setControlLinesSetsThreeLines : Obligations.SetControlLinesSetsThreeLines := by
  refine fun rs rw e s => ⟨rfl, _, lcdHears_hears s (.ctl rs rw e), ?_⟩
  rw [exec_setControlLines, setControlLines, latchAfter_eq]
  rfl

/-- Settles O10: the event is heard by the attached LCD, and the bus is then the block's. -/
theorem driveDataLatchesTheByte : Obligations.DriveDataLatchesTheByte :=
  fun b s => ⟨rfl, _, lcdHears_hears s (.drive b), exec_driveData b s⟩

/-- Settles O12: an LCD makes nothing of the release of a neutral bus, and of any other what it hears. -/
theorem releaseDataNeutralisesTheBus : Obligations.ReleaseDataNeutralisesTheBus := by
  refine fun s => ⟨rfl, fun hdout hddir => ?_, _, lcdHears_hears s .release, exec_releaseData s⟩
  rw [exec_releaseData, releaseData_neutral hdout hddir]
  rfl

/-- Settles O13: the delay is heard by the attached LCD and changes nothing else. -/
theorem delayBusOnlyEmitsItsEvent : Obligations.DelayBusOnlyEmitsItsEvent :=
  fun n s => ⟨rfl, _, lcdHears_hears s (.delayBus n.toNat), exec_delayBus n s⟩

end Sys2Proof.Machine

/-! The bus discipline of spec/70_reset_and_hazards.md R260 to R263 over whole runs: the monitor over the trace and the
lines still to run stay in step, line by line and command by command. -/

namespace Sys2Proof.Machine

/-! ### The monitor follows the phase of the lines -/

theorem Phase.matches_iff (p : Phase) (w : Watch) (poll : Byte) :
    p.matches w poll = true ↔
      w.ok = true ∧ w.view = { p.view with owed := w.view.owed } ∧ (w.view.owed = true → p.view.owed = true)
        ∧ (p.sampled = true → busyFlag poll = true ∨ w.view.owed = false) := by
  simp only [Phase.matches, Bool.and_eq_true, Bool.or_eq_true, Bool.not_eq_true', beq_iff_eq, and_assoc,
    imp_iff_not_or, Bool.not_eq_true, or_assoc]

/-- An event breaks no more rules where less is owed. -/
theorem BusView.breaks_of_owed_le {v : BusView} {o : Bool} {ev : Event} (ho : o = true → v.owed = true)
    (h : v.breaks ev = false) : BusView.breaks { v with owed := o } ev = false := by
  cases o with
  | true => rwa [← ho rfl]
  | false =>
    cases ev with
    | ctl rs rw e => grind [BusView.breaks]
    | _ => simp_all [BusView.breaks]

/-- Whether an event is a sample of the data bus. -/
def isSample : Event → Bool
  | .sample _ => true
  | _ => false

/-- But for a sample, an event makes a ready status owed only where it gives the device a byte (R263). -/
theorem BusView.next_owed {v : BusView} {ev : Event} (hev : isSample ev = false) :
    (v.next ev).owed = (v.owed || v.givesByte ev) := by
  cases ev with
  | sample b => cases hev
  | _ => simp [BusView.next, BusView.givesByte]

/-- Of what is owed the rest of the view after an event does not depend. -/
theorem BusView.next_setOwed (v : BusView) (o : Bool) (ev : Event) :
    ∃ o', BusView.next { v with owed := o } ev = { v.next ev with owed := o' } := by
  cases ev <;> exact ⟨_, rfl⟩

theorem BusView.givesByte_setOwed (v : BusView) (o : Bool) (ev : Event) :
    BusView.givesByte { v with owed := o } ev = v.givesByte ev := by
  cases ev <;> rfl

theorem BusView.samplesWell_of_not_isSample {ev : Event} (hev : isSample ev = false) (v : BusView) :
    v.samplesWell ev = true := by
  cases ev with
  | sample b => cases hev
  | _ => rfl

/-- An event, but for a sample, that keeps the discipline in the phase keeps it on the monitor, which then stands in
the next phase. -/
theorem Phase.matches_next {p : Phase} {w : Watch} {poll : Byte} {ev : Event} (hev : isSample ev = false)
    (hb : p.view.breaks ev = false) (h : p.matches w poll = true) : (p.next ev).matches (w.next ev) poll = true := by
  obtain ⟨hok, hview, howed, hsampled⟩ := (Phase.matches_iff p w poll).mp h
  have hgives : w.view.givesByte ev = p.view.givesByte ev := by rw [hview, BusView.givesByte_setOwed]
  have hbreaks : w.view.breaks ev = false := by rw [hview]; exact BusView.breaks_of_owed_le howed hb
  obtain ⟨o, hnext⟩ := BusView.next_setOwed p.view w.view.owed ev
  rw [← hview] at hnext
  refine (Phase.matches_iff _ _ _).mpr ⟨?_, ?_, ?_, ?_⟩
  · simp [Watch.next, hok, hbreaks, BusView.samplesWell_of_not_isSample hev]
  · simp [Watch.next, Phase.next, hnext]
  · simp only [Watch.next, Phase.next, BusView.next_owed hev, hgives, Bool.or_eq_true]
    exact Or.imp_left howed
  · simp only [Watch.next, Phase.next, BusView.next_owed hev, hgives, Bool.and_eq_true, Bool.not_eq_true',
      Bool.or_eq_false_iff]
    exact fun ⟨hs, hg⟩ => (hsampled hs).imp_right (⟨·, hg⟩)

theorem BusView.out_of_asked {v : BusView} (h : v.asked = true) : v.out = false := by
  simp_all [BusView.asked]

/-- A status read, whatever the byte: the ready status may be owed afterwards, and is where the byte says busy. -/
theorem Phase.matches_sample {p : Phase} {w : Watch} {poll : Byte} (b : Byte) (ha : p.view.asked = true)
    (h : p.matches w poll = true) :
    Phase.matches { view := { p.view with owed := true }, sampled := true } (w.next (.sample b)) b = true := by
  obtain ⟨hok, hview, -, -⟩ := (Phase.matches_iff p w poll).mp h
  have hasked : w.view.asked = true := by rw [hview]; exact ha
  have hout : w.view.out = false := BusView.out_of_asked hasked
  refine (Phase.matches_iff _ _ _).mpr ⟨?_, ?_, fun _ => rfl, fun _ => ?_⟩
  · simp [Watch.next, BusView.breaks, BusView.samplesWell, hok, hasked, hout]
  · rw [hview] at hout
    rw [Watch.next, hview]
    simpa [BusView.next] using hout
  · cases hb : busyFlag b <;> simp [Watch.next, BusView.next, hasked, hb]

/-- The end of a poll that showed the LCD ready: no ready status is owed any more. -/
theorem Phase.matches_ready {p : Phase} {w : Watch} {poll : Byte} (hs : p.sampled = true) (hr : busyFlag poll = false)
    (h : p.matches w poll = true) :
    Phase.matches { view := { p.view with owed := false }, sampled := false } w poll = true := by
  obtain ⟨hok, hview, -, hsampled⟩ := (Phase.matches_iff p w poll).mp h
  have howed : w.view.owed = false := (hsampled hs).resolve_left (by simp [hr])
  exact (Phase.matches_iff _ _ _).mpr ⟨hok, howed ▸ hview, fun h => absurd h (by simp [howed]), nofun⟩

/-! ### Lines that keep the discipline between operations -/

/-- Lines that, run between operations, keep the discipline and end between operations. -/
def KeepsDiscipline (prog : List Micro) : Prop :=
  ∀ after, linesOk Phase.idle after = true → linesOk Phase.idle (prog ++ after) = true

theorem keepsDiscipline_nil : KeepsDiscipline [] := fun _ ha => ha

theorem keepsDiscipline_callLines (c : LcdCall) : KeepsDiscipline (callLines c) := fun _ => linesOk_callLines c

theorem KeepsDiscipline.append {prog prog' : List Micro} (h : KeepsDiscipline prog) (h' : KeepsDiscipline prog') :
    KeepsDiscipline (prog ++ prog') := by
  intro after ha
  rw [List.append_assoc]
  exact h _ (h' _ ha)

/-- Calls of driver operations, each of which starts between operations and ends there. -/
theorem keepsDiscipline_calls (calls : List LcdCall) : KeepsDiscipline (calls.map .call) := by
  intro after ha
  induction calls with
  | nil => exact ha
  | cons c calls ih => simpa [linesOk] using ih

theorem keepsDiscipline_scanLines : KeepsDiscipline scanLines := fun _ ha => ha

theorem keepsDiscipline_startupTail : KeepsDiscipline startupTail := fun _ ha => ha

theorem keepsDiscipline_bannerLines (s : State) : KeepsDiscipline (bannerLines s) := by
  have h := keepsDiscipline_calls ((s.env.banner.getD Config.banner).map fun p => .writeLine p.1.val p.2)
  rwa [List.map_map] at h

theorem keepsDiscipline_dispatchLines (calls : List LcdCall) : KeepsDiscipline (dispatchLines calls) :=
  (keepsDiscipline_calls calls).append (fun _ ha => ha)

/-! ### The lines of the sequencer -/

/-- The monitor is content, and the lines still to run keep the discipline from where it stands. -/
def OnTrack (s : State) : Prop :=
  ∃ p : Phase, p.matches (watch s.trace) s.poll = true ∧ linesOk p s.seq = true

theorem watch_append (t : List Event) (ev : Event) : watch (t ++ [ev]) = (watch t).next ev := by
  simp [watch]

/-- An event, but for a sample, that its phase allows. -/
theorem OnTrack.of_event {s t : State} {p : Phase} {ev : Event} (hm : p.matches (watch s.trace) s.poll = true)
    (hev : isSample ev = false) (hb : p.view.breaks ev = false) (htrace : t.trace = s.trace ++ [ev])
    (hpoll : t.poll = s.poll) (hl : linesOk (p.next ev) t.seq = true) : OnTrack t := by
  refine ⟨p.next ev, ?_, hl⟩
  rw [htrace, hpoll, watch_append]
  exact Phase.matches_next hev hb hm

/-- Whether an event is one of the scanner's, of which the LCD bus shows nothing. -/
def isScanEvent : Event → Bool
  | .delayScan _ => true
  | .row _ => true
  | .col _ => true
  | .key _ => true
  | _ => false

theorem OnTrack.of_scanEvent {s t : State} {p : Phase} {ev : Event} (hm : p.matches (watch s.trace) s.poll = true)
    (hev : isScanEvent ev = true) (htrace : t.trace = s.trace ++ [ev]) (hpoll : t.poll = s.poll)
    (hl : linesOk p t.seq = true) : OnTrack t := by
  have hfacts : isSample ev = false ∧ p.view.breaks ev = false ∧ p.next ev = p := by
    cases ev with
    | delayScan | row | col | key => simp [isSample, BusView.breaks, Phase.next, BusView.next, BusView.givesByte]
    | _ => cases hev
  obtain ⟨hsample, hb, hnext⟩ := hfacts
  exact .of_event hm hsample hb htrace hpoll (hnext.symm ▸ hl)

/-- Lines pushed between operations that keep the discipline. -/
theorem OnTrack.pushSeq {s : State} {p : Phase} {prog : List Micro} (hm : p.matches (watch s.trace) s.poll = true)
    (hl : (p == Phase.idle && linesOk p s.seq) = true) (hprog : KeepsDiscipline prog) : OnTrack (s.pushSeq prog) := by
  obtain ⟨hp, hl⟩ := Bool.and_eq_true_iff.mp hl
  obtain rfl := eq_of_beq hp
  exact ⟨Phase.idle, hm, hprog _ hl⟩

/-- The end of a poll: while the LCD is busy the loop's lines run again from the phase they ended in, and once it is
ready nothing is owed (R133, R263). -/
theorem onTrack_pollUntil {s : State} {p : Phase} (hm : p.matches (watch s.trace) s.poll = true)
    (hl : linesOk p (.pollUntil :: s.seq) = true) : OnTrack (pollUntil s) := by
  obtain ⟨⟨rs, rw, e, out, waited, owed⟩, sampled⟩ := p
  simp only [linesOk, Bool.and_eq_true, Bool.not_eq_true'] at hl
  obtain ⟨⟨⟨⟨⟨⟨rfl, rfl⟩, rfl⟩, rfl⟩, rfl⟩, rfl⟩, hrest⟩ := hl
  unfold pollUntil
  split
  case isTrue => exact ⟨_, hm, hrest⟩
  case isFalse hr => exact ⟨_, Phase.matches_ready rfl (Bool.not_eq_true _ ▸ hr) hm, hrest⟩

theorem onTrack_writeText {s : State} {p : Phase} {text : List Byte} (hm : p.matches (watch s.trace) s.poll = true)
    (hl : linesOk p (.writeText text :: s.seq) = true) : OnTrack (writeText text s) := by
  cases text with
  | nil => exact OnTrack.pushSeq hm hl keepsDiscipline_nil
  | cons c rest =>
    unfold writeText
    dsimp only
    split
    · exact OnTrack.pushSeq hm hl keepsDiscipline_nil
    · exact OnTrack.pushSeq hm hl
        (KeepsDiscipline.append (fun _ ha => linesOk_writeLines _ _ ha) (fun _ ha => ha))

theorem onTrack_acceptKey {s : State} {p : Phase} (hm : p.matches (watch s.trace) s.poll = true)
    (hl : linesOk p (.accept :: s.seq) = true) : OnTrack (acceptKey s) := by
  unfold acceptKey
  split
  · obtain ⟨hp, hl⟩ := Bool.and_eq_true_iff.mp hl
    obtain rfl := eq_of_beq hp
    exact .of_scanEvent hm (ev := .key (resolvedKey s)) rfl rfl rfl (keepsDiscipline_dispatchLines _ _ hl)
  · exact OnTrack.pushSeq hm hl keepsDiscipline_nil

theorem onTrack_confirmLoop {s : State} {p : Phase} (hm : p.matches (watch s.trace) s.poll = true)
    (hl : linesOk p s.seq = true) : OnTrack (confirmLoop s) := by
  unfold confirmLoop
  split
  · exact ⟨p, hm, hl⟩
  · exact ⟨p, hm, hl⟩

theorem onTrack_releaseLoop {s : State} {p : Phase} (hm : p.matches (watch s.trace) s.poll = true)
    (hl : linesOk p s.seq = true) : OnTrack (releaseLoop s) := by
  unfold releaseLoop
  split
  · exact ⟨p, hm, hl⟩
  · exact ⟨p, hm, hl⟩

@[simp] theorem sampleMask_poll (s : State) : (sampleMask s).poll = s.poll := by
  obtain ⟨e, he⟩ := sampleMask_eq s; simp [he]
@[simp] theorem sampleMask_seq (s : State) : (sampleMask s).seq = s.seq := by
  obtain ⟨e, he⟩ := sampleMask_eq s; simp [he]
@[simp] theorem releaseSample_poll (s : State) : (releaseSample s).poll = s.poll := by
  obtain ⟨e, he⟩ := releaseSample_eq s; simp [he]
@[simp] theorem releaseSample_seq (s : State) : (releaseSample s).seq = s.seq := by
  obtain ⟨e, he⟩ := releaseSample_eq s; simp [he]

/-- Every line that is neither refused nor a status read keeps the trace and the lines in step: a bus line by the rule
its phase was checked for, a line that pushes lines by those lines, the scanner's by saying nothing of the bus. -/
theorem onTrack_of_lineTurn {m : Micro} {s t : State} {p : Phase} (hm : p.matches (watch s.trace) s.poll = true)
    (hl : linesOk p (m :: s.seq) = true) (h : lineTurn m s = .state t) : OnTrack t := by
  cases m with
  | ctl | drive | release =>
    cases h
    obtain ⟨hb, hrest⟩ := Bool.and_eq_true_iff.mp hl
    exact .of_event hm rfl (by simpa using hb) rfl rfl hrest
  | delayBus n => cases h; exact .of_event hm (ev := .delayBus n) rfl rfl rfl rfl hl
  | readStatus => rw [lineTurn, statusTurn_eq] at h; cases h
  | pollUntil => cases h; exact onTrack_pollUntil hm hl
  | call c =>
    obtain ⟨-, rfl⟩ := callTurn_state h
    exact .pushSeq hm hl ((keepsDiscipline_callLines c).append keepsDiscipline_nil)
  | writeText text => cases h; exact onTrack_writeText hm hl
  | accept => cases h; exact onTrack_acceptKey hm hl
  | banner => cases h; exact .pushSeq hm hl (keepsDiscipline_bannerLines s)
  | mainLoop => cases h; exact .pushSeq hm hl (keepsDiscipline_scanLines.append (fun _ ha => ha))
  | confirmLoop => cases h; exact onTrack_confirmLoop hm hl
  | releaseLoop => cases h; exact onTrack_releaseLoop hm hl
  | delayScan n => cases h; exact .of_scanEvent hm (ev := .delayScan n) rfl rfl rfl hl
  | activateRow => cases h; exact .of_scanEvent hm (ev := .row (onehot5 s.row)) rfl rfl rfl hl
  | deactivateRow => cases h; exact .of_scanEvent hm (ev := .row 0#5) rfl rfl rfl hl
  | sampleMask =>
    cases h
    exact .of_scanEvent hm rfl (sampleMask_trace s) (sampleMask_poll s)
      (by rw [sampleMask_seq]; exact hl)
  | releaseSample =>
    cases h
    exact .of_scanEvent hm rfl (releaseSample_trace s) (releaseSample_poll s) (by rw [releaseSample_seq]; exact hl)
  | settleReady => cases h; exact ⟨p, by simpa using hm, by rw [settleReady_seq]; exact hl⟩
  | markBusy => cases h; exact ⟨p, by simpa using hm, by rw [markBusy_seq]; exact hl⟩
  | markReady | clearCount | bumpCount | advanceRow | scanDone => cases h; exact ⟨p, hm, hl⟩

/-- A status read: the phase was checked to be one in which the LCD answers (R132). -/
theorem onTrack_readStatus {s : State} {p : Phase} {e : Environment} (b : Byte)
    (hm : p.matches (watch s.trace) s.poll = true) (hl : linesOk p (.readStatus :: s.seq) = true) :
    OnTrack (readStatus b { s with env := e }) := by
  obtain ⟨hasked, hrest⟩ := Bool.and_eq_true_iff.mp hl
  refine ⟨_, ?_, hrest⟩
  rw [readStatus_trace, readStatus_poll, watch_append]
  exact Phase.matches_sample b hasked hm

/-! ### The host's program and the byte the device took -/

/-- The host has no bus primitive to issue, and what the device took, if anything, is a byte written to it. -/
def HostHeld (s : State) : Prop := s.env.program.all isDriverCommand = true ∧ latchIsWrite s = true

theorem HostHeld.of_eq {s t : State} (h : HostHeld s) (hp : t.env.program = s.env.program)
    (hl : t.env.lcd.latch = s.env.lcd.latch) : HostHeld t := by
  rwa [HostHeld, latchIsWrite, hp, hl]

/-- What the control lines make the device take is a byte written to it (R131). -/
theorem hostHeld_setControlLines {s : State} (rs rw e : Bool) (h : HostHeld s) :
    HostHeld (setControlLines rs rw e s) := by
  cases hw : writePulseEnds s rs rw e with
  | false => exact h.of_eq rfl (by simp [latchAfter, hw])
  | true =>
    obtain ⟨hprogram, -⟩ := h
    have hbit : ∀ (rs : Bool) (b : Byte), (pinWord rs false true b).getLsbD 9 = false := by decide
    exact ⟨hprogram, by simp [latchIsWrite, latchAfter, hw, -BitVec.getLsbD_eq_getElem, hbit]⟩

theorem lcdHears_latch (v : BusView) (ev : Event) (p : LcdParty) (d : LcdDevice) :
    (lcdHears v ev p d).latch = d.latch := by
  obtain ⟨-, -, -, -, hlatch⟩ := lcdHears_frame v ev p d
  exact hlatch

theorem sampleColumns_program (s : State) : (sampleColumns s).2.env.program = s.env.program := by
  obtain ⟨e, he, hp, -⟩ := keyAnswer_frame s
  rw [sampleColumns, he]
  exact hp

theorem releaseSample_program (s : State) : (releaseSample s).env.program = s.env.program := by
  unfold releaseSample
  dsimp only
  split
  · exact sampleColumns_program s
  · exact sampleColumns_program s

theorem hostHeld_of_pushSeq {s t : State} (hs : HostHeld s) (h : ∃ prog, t = s.pushSeq prog) : HostHeld t := by
  obtain ⟨prog, rfl⟩ := h
  exact hs

theorem hostHeld_of_lineTurn {m : Micro} {s t : State} (hs : HostHeld s) (h : lineTurn m s = .state t) :
    HostHeld t := by
  cases m with
  | ctl rs rw e => cases h; exact hostHeld_setControlLines rs rw e hs
  | drive | release | delayBus => cases h; exact hs.of_eq rfl (lcdHears_latch _ _ _ _)
  | readStatus => rw [lineTurn, statusTurn_eq] at h; cases h
  | call c => obtain ⟨-, rfl⟩ := callTurn_state h; exact hs
  | pollUntil => cases h; exact hostHeld_of_pushSeq hs (pollUntil_eq_pushSeq s)
  | writeText text => cases h; exact hostHeld_of_pushSeq hs (writeText_eq_pushSeq text s)
  | confirmLoop => cases h; exact hostHeld_of_pushSeq hs (confirmLoop_eq_pushSeq s)
  | releaseLoop => cases h; exact hostHeld_of_pushSeq hs (releaseLoop_eq_pushSeq s)
  | accept => cases h; unfold acceptKey; split <;> exact hs
  | settleReady => cases h; exact hs.of_eq (by simp) (by simp)
  | markBusy => cases h; exact hs.of_eq (by simp) (by simp)
  | sampleMask => cases h; exact hs.of_eq (sampleColumns_program s) (by rw [sampleMask_lcd])
  | releaseSample => cases h; exact hs.of_eq (releaseSample_program s) (by rw [releaseSample_lcd])
  | delayScan | markReady | activateRow | clearCount | bumpCount | deactivateRow | advanceRow | scanDone | banner
  | mainLoop => cases h; exact hs

/-! ### The host's commands -/

/-- The host commands that are no bus primitive: the driver's, the scanner's, the glue's, and the reserved row. -/
def isDriverInstr : Instr → Bool
  | .waitReady => true
  | .writeInstruction _ => true
  | .writeData _ => true
  | .initializeLcd => true
  | .writeLine _ _ => true
  | .writeChar _ => true
  | .clear => true
  | .scanCycle => true
  | .keyEvent _ => true
  | .startup => true
  | .reserved _ => true
  | _ => false

/-- A command of `op` 0x5 and above decodes to no bus primitive, and no command to a byte of the LCD bus (R96). -/
theorem isDriverInstr_decodeCommand {c : HostCommand} (h : isDriverCommand c = true) :
    isDriverInstr (decodeCommand c) = true := by
  have hop : 5 ≤ (opField c.word).toNat := of_decide_eq_true h
  unfold decodeCommand
  dsimp only
  split
  case h_1 | h_2 | h_3 | h_4 | h_5 => omega
  case h_6 | h_9 | h_10 | h_12 | h_13 | h_14 | h_15 => split <;> rfl
  case h_7 | h_8 | h_11 | h_16 => rfl

theorem issueCall_keepsDiscipline {c : LcdCall} {after : List Micro} {s t : State} (hafter : KeepsDiscipline after)
    (h : issueCall c after s = .next t) : ∃ prog, KeepsDiscipline prog ∧ t = s.pushSeq prog := by
  obtain ⟨-, rfl⟩ := issueCall_next h
  exact ⟨_, (keepsDiscipline_callLines c).append hafter, rfl⟩

theorem issueProgram_keepsDiscipline {calls : List LcdCall} {s t : State} (h : issueProgram calls s = .next t) :
    ∃ prog, KeepsDiscipline prog ∧ t = s.pushSeq prog := by
  obtain ⟨-, rfl⟩ | ⟨c, rest, -, -, rfl⟩ := issueProgram_next h
  · exact ⟨[], keepsDiscipline_nil, rfl⟩
  · exact ⟨_, (keepsDiscipline_callLines c).append (keepsDiscipline_calls rest), rfl⟩

/-- Such a command, where it is not refused, pushes lines that keep the discipline, and does nothing else. -/
theorem exec_keepsDiscipline {i : Instr} {s t : State} (hi : isDriverInstr i = true) (h : exec i s = .next t) :
    ∃ prog, KeepsDiscipline prog ∧ t = s.pushSeq prog := by
  cases i with
  | waitReady | writeInstruction | writeData | initializeLcd | writeLine | writeChar | clear =>
    exact issueCall_keepsDiscipline keepsDiscipline_nil h
  | startup => exact issueCall_keepsDiscipline keepsDiscipline_startupTail h
  | scanCycle => cases h; exact ⟨scanLines, keepsDiscipline_scanLines, rfl⟩
  | keyEvent k =>
    simp only [exec, execKeyEvent] at h
    split at h
    · cases h
    · exact issueProgram_keepsDiscipline h
  | reserved w => cases h
  | _ => cases hi

/-! ### Whole steps and whole runs -/

theorem Polite.of_pushSeq {s : State} {prog : List Micro} (hs : Polite s) (hseq : s.seq = [])
    (hprog : KeepsDiscipline prog) : Polite (s.pushSeq prog) := by
  obtain ⟨⟨p, hm, hl⟩, hheld⟩ := hs
  have hidle : (p == Phase.idle) = true := by rwa [hseq] at hl
  obtain rfl := eq_of_beq hidle
  exact ⟨OnTrack.pushSeq hm hl hprog, hheld⟩

/-- The device's turn changes the device alone, and leaves it with no byte taken. -/
theorem polite_of_deviceTurn {s t : State} {w : PinWord} (hs : Polite s) (hw : s.env.lcd.latch = some w)
    (h : step s = .next t) : Polite t := by
  obtain ⟨htrack, hprogram, hlatch⟩ := hs
  obtain ⟨d, rfl, hd⟩ := step_frame_of_write hw ((latchIsWrite_of_latch hw).mp hlatch) h
  exact ⟨htrack, hprogram, by simp [latchIsWrite, hd]⟩

/-- A line that is an instruction's turn is the status read; the environment's answer leaves the host's program and the
byte the device took alone. -/
theorem lineTurn_instr_readStatus {m : Micro} {s t u : State} {i : Instr} (h : lineTurn m s = .instr i u)
    (ht : exec i u = .next t) :
    m = .readStatus ∧ ∃ b e, t = readStatus b { s with env := e } ∧ e.program = s.env.program
      ∧ e.lcd.latch = s.env.lcd.latch := by
  cases m with
  | readStatus =>
    rw [lineTurn, statusTurn_eq] at h
    cases h
    cases ht
    obtain ⟨e, he, hprogram, hlatch, -⟩ := lcdAnswer_frame s
    exact ⟨rfl, _, e, by rw [he], hprogram, hlatch⟩
  | call c =>
    simp only [lineTurn, callTurn] at h
    split at h <;> cases h
  | _ => cases h

theorem polite_of_line {s t : State} {m : Micro} (hs : HostHeld s) {p : Phase}
    (hm : p.matches (watch s.trace) s.poll = true) (hl : linesOk p (m :: s.seq) = true)
    (h : lineTurn m s = .state t ∨ ∃ i u, lineTurn m s = .instr i u ∧ exec i u = .next t) : Polite t := by
  obtain hstate | ⟨i, u, hu, hi⟩ := h
  · exact ⟨onTrack_of_lineTurn hm hl hstate, hostHeld_of_lineTurn hs hstate⟩
  · obtain ⟨rfl, b, e, rfl, hprogram, hlatch⟩ := lineTurn_instr_readStatus hu hi
    exact ⟨onTrack_readStatus b hm hl, hs.of_eq hprogram ((lcdHears_latch _ _ _ _).trans hlatch)⟩

/-- The host's turn: with nothing to issue nothing happens, and a command pushes lines that keep the discipline. -/
theorem polite_of_hostTurn {s t : State} (hs : Polite s) (hseq : s.seq = [])
    (h : (s.env.program = [] ∧ t = s) ∨
      ∃ c rest, s.env.program = c :: rest ∧
        exec (decodeCommand c) { s with env := { s.env with program := rest } } = .next t) : Polite t := by
  obtain ⟨-, rfl⟩ | ⟨c, rest, hprogram, hexec⟩ := h
  · exact hs
  · obtain ⟨htrack, hall, hlatch⟩ := hs
    rw [hprogram, List.all_cons, Bool.and_eq_true] at hall
    obtain ⟨hc, hrest⟩ := hall
    obtain ⟨prog, hprog, rfl⟩ := exec_keepsDiscipline (isDriverInstr_decodeCommand hc) hexec
    exact Polite.of_pushSeq ⟨htrack, hrest, hlatch⟩ hseq hprog

/-- Settles O25, by whose turn the step is. -/
theorem everyStepKeepsTheBusDiscipline : Obligations.EveryStepKeepsTheBusDiscipline := by
  intro s t hs h
  obtain ⟨w, hw, -⟩ | ⟨-, m, rest, hseq, hline⟩ | ⟨-, hseq, hhost⟩ := step_cases h
  · exact polite_of_deviceTurn hs hw h
  · obtain ⟨⟨p, hm, hl⟩, hheld⟩ := hs
    exact polite_of_line (s := { s with seq := rest }) hheld hm (hseq ▸ hl) hline
  · exact polite_of_hostTurn hs hseq hhost

theorem linesOk_nil : linesOk Phase.idle [] = true := by decide

/-- A machine just reset is polite in any environment whose host issues no bus primitive. -/
theorem polite_reset {env : Environment} (hprogram : env.program.all isDriverCommand = true)
    (hlatch : env.lcd.latch = none) : Polite { State.reset with env := env } :=
  ⟨⟨Phase.idle, Phase.idle_matches_start State.reset.poll, linesOk_nil⟩, hprogram, by simp [latchIsWrite, hlatch]⟩

theorem Polite.watch_ok {s : State} (h : Polite s) : (watch s.trace).ok = true := by
  obtain ⟨⟨p, hm, -⟩, -⟩ := h
  obtain ⟨hok, -⟩ := (Phase.matches_iff p _ _).mp hm
  exact hok

/-- Settles O27: the run starts polite and every step keeps it so. -/
theorem driverOnlyRunsNeverViolateTheBus : Obligations.DriverOnlyRunsNeverViolateTheBus :=
  fun _ _ hprogram hlatch h => (h.induct everyStepKeepsTheBusDiscipline (polite_reset hprogram hlatch)).watch_ok

end Sys2Proof.Machine

/-! The LCD protocol driver of spec/41_lcd_driver.md R130, R132: where its operations are refused, and one status
read. -/

namespace Sys2Proof.Machine

/-! ### Refusals at entry (R130, R137, spec/60_exceptions.md R227) -/

theorem entryRefusal_badOperand {c : LcdCall} (h : badOperand c = true) (s : State) :
    entryRefusal c s = some .badLineIndex := by
  simp [entryRefusal, h]

theorem entryRefusal_pinsNotIdle {c : LcdCall} {s : State} (hc : badOperand c = false) (hs : s.pinsIdle = false) :
    entryRefusal c s = some .pinsNotIdle := by
  simp [entryRefusal, hc, hs]

theorem entryRefusal_uninitialized {c : LcdCall} {s : State} (hc : badOperand c = false) (hn : needsInit c = true)
    (hs : s.pinsIdle = true) (hu : s.lcdst = .uninitialized) : entryRefusal c s = some .lcdNotInitialized := by
  simp [entryRefusal, hc, hn, hs, hu]

theorem issueCall_of_refusal {c : LcdCall} {s : State} {r : Refusal} (after : List Micro)
    (h : entryRefusal c s = some r) : issueCall c after s = .refused r := by
  simp [issueCall, h]

theorem badOperand_writeLine (line : Fin 2) (text : List Byte) : badOperand (.writeLine line.val text) = false :=
  decide_eq_false (Nat.not_le.mpr line.isLt)

/-- Whether a program begins with one of the writing operations, its operand in its domain. -/
def beginsWithWrite : List LcdCall → Bool
  | [] => false
  | c :: _ => needsInit c && !badOperand c

/-- A key event whose program begins with a writing operation is refused as that operation is. -/
theorem exec_keyEvent_of_refusal {s : State} {k : BitVec 5} {r : Refusal} (hk : k.toNat ≤ 24)
    (hw : beginsWithWrite (dispatchProgram s.env.dispatch k.toNat) = true)
    (hr : ∀ c, badOperand c = false → needsInit c = true → entryRefusal c s = some r) :
    exec (.keyEvent k) s = .refused r := by
  show execKeyEvent k s = _
  rw [execKeyEvent, if_neg (by omega)]
  cases hp : dispatchProgram s.env.dispatch k.toNat with
  | nil => rw [hp] at hw; cases hw
  | cons c rest =>
    rw [hp, beginsWithWrite, Bool.and_eq_true, Bool.not_eq_true'] at hw
    obtain ⟨hneeds, hoperand⟩ := hw
    exact issueCall_of_refusal _ (hr c hoperand hneeds)

/-- The codes to which the default table gives an operation (R201). -/
def listedCodes : List (BitVec 5) := [2#5, 6#5, 7#5, 8#5, 11#5, 12#5, 13#5, 16#5, 17#5, 18#5, 24#5]

theorem beginsWithWrite_listedCodes :
    ∀ k ∈ listedCodes, k.toNat ≤ 24 ∧ beginsWithWrite (dispatchProgram defaultDispatch k.toNat) = true := by
  decide

/-- With the default table the listed key events are refused where the writing operations are. -/
theorem exec_listedCode_of_refusal {s : State} {r : Refusal} (hd : s.env.dispatch = defaultDispatch)
    (hr : ∀ c, badOperand c = false → needsInit c = true → entryRefusal c s = some r) :
    ∀ k ∈ listedCodes, exec (.keyEvent k) s = .refused r := by
  intro k hk
  obtain ⟨hle, hw⟩ := beginsWithWrite_listedCodes k hk
  exact exec_keyEvent_of_refusal hle (hd ▸ hw) hr

/-- Settles O20: each of the operations is refused as the call it issues is, which no `LCDST` saves. -/
theorem driverRefusesPinsNotIdle : Obligations.DriverRefusesPinsNotIdle := by
  intro s b line text hs
  have hcall : ∀ c after, badOperand c = false → issueCall c after s = .refused .pinsNotIdle :=
    fun c after hc => issueCall_of_refusal after (entryRefusal_pinsNotIdle hc hs)
  refine ⟨?_, fun hd => exec_listedCode_of_refusal hd fun c hc _ => entryRefusal_pinsNotIdle hc hs⟩
  simp only [List.forall_mem_cons, List.not_mem_nil, IsEmpty.forall_iff, implies_true, and_true]
  exact ⟨hcall .waitReady [] rfl, hcall (.writeInstruction b) [] rfl, hcall (.writeData b) [] rfl,
    hcall .initializeLcd [] rfl, hcall (.writeLine line.val text) [] (badOperand_writeLine line text),
    hcall (.writeChar b) [] rfl, hcall .clear [] rfl, hcall .initializeLcd startupTail rfl⟩

/-- Settles O21: each of the operations is refused as the call it issues is. -/
theorem driverRefusesUninitialized : Obligations.DriverRefusesUninitialized := by
  intro s b line text hs hu
  have hentry : ∀ c, badOperand c = false → needsInit c = true → entryRefusal c s = some .lcdNotInitialized :=
    fun c hc hn => entryRefusal_uninitialized hc hn hs hu
  have hcall : ∀ c, badOperand c = false → needsInit c = true → issueCall c [] s = .refused .lcdNotInitialized :=
    fun c hc hn => issueCall_of_refusal [] (hentry c hc hn)
  refine ⟨?_, fun hd => exec_listedCode_of_refusal hd hentry⟩
  simp only [List.forall_mem_cons, List.not_mem_nil, IsEmpty.forall_iff, implies_true, and_true]
  exact ⟨hcall (.writeInstruction b) rfl rfl, hcall (.writeData b) rfl rfl,
    hcall (.writeLine line.val text) (badOperand_writeLine line text) rfl, hcall (.writeChar b) rfl rfl,
    hcall .clear rfl rfl⟩

/-- Settles O22: the operand is looked at first. -/
theorem operandsOutsideTheirDomainAreRefused : Obligations.OperandsOutsideTheirDomainAreRefused :=
  ⟨fun s lineIndex text h =>
      issueCall_of_refusal [] (entryRefusal_badOperand (c := .writeLine lineIndex text) (decide_eq_true h) s),
    fun _ _ hk => if_pos hk⟩

/-! ### One status read (R132, R133) -/

/-- Settles O7: the line is the environment's turn to answer, and the byte decodes to the status row. -/
theorem stepRunsTheStatusByteRead : Obligations.StepRunsTheStatusByteRead := by
  intro s b answers rest hl hs hp
  have hanswer := lcdAnswer_given (s := { s with seq := rest }) hp
  simp only [step, nextTurn_line hl hs, lineTurn, statusTurn_eq, hanswer]

/-- The end of a poll, by the busy flag of the byte read. -/
theorem pollUntil_eq (s : State) :
    pollUntil s = { s with seq := if busyFlag s.poll then pollBody ++ s.seq else s.seq } := by
  unfold pollUntil
  split
  · rfl
  · rfl

/-- Settles O56: the attached LCD hears the sample, and the loop's test reads bit 7 of the byte. -/
theorem statusByteIsSampled : Obligations.StatusByteIsSampled := by
  refine fun s b a => ⟨⟨_, lcdHears_hears s (.sample (statusByte b a)), rfl⟩, busyFlag_statusByte b a, ?_⟩
  rw [pollUntil_eq, busyFlag_statusByte]

end Sys2Proof.Machine

/-! A series of lines on the LCD bus with what an LCD other than RefLCD hears of it, and the write cycle of
spec/41_lcd_driver.md R131. -/

namespace Sys2Proof.Machine

/-! ### What an LCD other than RefLCD makes of a series of events on its bus -/

/-- The bus after a series of events. -/
def BusView.after (v : BusView) (evs : List Event) : BusView := evs.foldl BusView.next v

/-- The breaches of the bus discipline in a series of events. -/
def BusView.breaches : BusView → List Event → Nat
  | _, [] => 0
  | v, ev :: evs => (if v.breaks ev then 1 else 0) + BusView.breaches (v.next ev) evs

/-- Such an LCD after a series of events, apart from a byte it is given: the record of R262 and R263 is kept, and of its
state nothing is said after a breach (log entry 25). -/
def lcdOverhears (v : BusView) (evs : List Event) (d : LcdDevice) : LcdDevice :=
  let heard :=
    { d with settled := (v.after evs).waited, owed := (v.after evs).owed, slips := d.slips + v.breaches evs }
  if v.breaches evs = 0 then heard else lcdUndescribed heard

theorem lcdOverhears_kept {v : BusView} {evs : List Event} (h : v.breaches evs = 0) (d : LcdDevice) :
    lcdOverhears v evs d = { d with settled := (v.after evs).waited, owed := (v.after evs).owed } := by
  simp [lcdOverhears, h]

theorem lcdOverhears_broken {v : BusView} {evs : List Event} (h : v.breaches evs ≠ 0) (d : LcdDevice) :
    lcdOverhears v evs d =
      lcdUndescribed
        { d with
          settled := (v.after evs).waited, owed := (v.after evs).owed, slips := d.slips + v.breaches evs } := by
  simp [lcdOverhears, h]

theorem lcdOverhears_latch (v : BusView) (evs : List Event) (d : LcdDevice) :
    (lcdOverhears v evs d).latch = d.latch := by
  unfold lcdOverhears
  dsimp only
  split <;> rfl

theorem lcdOverhears_nil (v : BusView) {d : LcdDevice} (hs : v.waited = d.settled) (ho : v.owed = d.owed) :
    lcdOverhears v [] d = d := by
  rw [lcdOverhears_kept rfl]
  simp [BusView.after, hs, ho]

/-- One event and then the others. -/
theorem lcdOverhears_cons (v : BusView) (ev : Event) (evs : List Event) (answers : List Byte) (d : LcdDevice) :
    lcdOverhears (v.next ev) evs (lcdHears v ev (.oracle answers) d) = lcdOverhears v (ev :: evs) d := by
  cases hb : v.breaks ev with
  | false =>
    have hsum : v.breaches (ev :: evs) = (v.next ev).breaches evs := by simp [BusView.breaches, hb]
    rw [lcdHears_kept hb, lcdOverhears, lcdOverhears, hsum]
    rfl
  | true =>
    have hsum : v.breaches (ev :: evs) = 1 + (v.next ev).breaches evs := by simp [BusView.breaches, hb]
    rw [lcdHears_broken hb, lcdOverhears_broken (v := v) (by omega), lcdOverhears, hsum, ← Nat.add_assoc]
    split
    case isTrue h0 => rw [h0]; rfl
    case isFalse => rfl

/-- What an event leaves in the record is what the bus shows. -/
theorem lcdHears_record (v : BusView) (ev : Event) (answers : List Byte) (d : LcdDevice) :
    (lcdHears v ev (.oracle answers) d).settled = (v.next ev).waited
      ∧ (lcdHears v ev (.oracle answers) d).owed = (v.next ev).owed := by
  unfold lcdHears
  dsimp only
  split <;> exact ⟨rfl, rfl⟩

/-! ### A run of bus lines -/

/-- What an event of the bus does to the block's pins (R110 to R113). -/
def pinsAfterEvent (s : State) : Event → State
  | .ctl rs rw e => { s with rs := rs, rw := rw, e := e }
  | .drive b => { s with ddir := .output, dout := b }
  | .release => { s with ddir := .input, dout := 0#8 }
  | .sample _ => { s with ddir := .input }
  | _ => s

/-- The state with other lines still to run. -/
def State.withSeq (s : State) (seq : List Micro) : State := { s with seq := seq }

/-- The state after an event of the bus: the pins, the trace, and what the attached LCD hears. -/
def overEvent (s : State) (ev : Event) : State :=
  { pinsAfterEvent s ev with
    trace := s.trace ++ [ev], env := { s.env with lcd := lcdHears s.busView ev s.env.lcdParty s.env.lcd } }

/-- The state after a series of events of the bus. -/
def overBus (s : State) (evs : List Event) : State := evs.foldl overEvent s

theorem overEvent_seq (s : State) (ev : Event) (seq : List Micro) :
    (overEvent s ev).withSeq seq = overEvent (s.withSeq seq) ev := by
  cases ev <;> rfl

/-- While the attached LCD keeps its record of the bus, the bus after an event is what the event makes of it. -/
theorem busView_overEvent {s : State} {answers : List Byte} (hp : s.env.lcdParty = .oracle answers) (ev : Event) :
    (overEvent s ev).busView = s.busView.next ev := by
  obtain ⟨hsettled, howed⟩ := lcdHears_record s.busView ev answers s.env.lcd
  rw [← hp] at hsettled howed
  have hrecord : (overEvent s ev).busView =
      { (pinsAfterEvent s ev).busView with
        waited := (s.busView.next ev).waited, owed := (s.busView.next ev).owed } := by
    rw [← hsettled, ← howed]; rfl
  rw [hrecord]
  cases ev <;> rfl

/-- The pins after a series of events do not depend on the rest of the state, nor is that changed by them. -/
theorem foldl_pinsAfterEvent (evs : List Event) (s : State) (trace : List Event) (env : Environment) :
    evs.foldl pinsAfterEvent { s with trace := trace, env := env } =
      { evs.foldl pinsAfterEvent s with trace := trace, env := env } := by
  induction evs generalizing s with
  | nil => rfl
  | cons ev evs ih =>
    simp only [List.foldl_cons]
    rw [← ih]
    cases ev <;> rfl

/-- A series of events, part by part. -/
theorem overBus_eq {s : State} {answers : List Byte} (hp : s.env.lcdParty = .oracle answers) (evs : List Event) :
    overBus s evs =
      { evs.foldl pinsAfterEvent s with
        trace := s.trace ++ evs, env := { s.env with lcd := lcdOverhears s.busView evs s.env.lcd } } := by
  induction evs generalizing s with
  | nil => simp [overBus, lcdOverhears_nil s.busView (d := s.env.lcd) rfl rfl]
  | cons ev evs ih =>
    show overBus (overEvent s ev) evs = _
    rw [ih (s := overEvent s ev) hp, busView_overEvent hp]
    simp only [overEvent, foldl_pinsAfterEvent, List.foldl_cons, List.append_assoc, List.singleton_append, hp,
      lcdOverhears_cons]

theorem overBus_seq (s : State) (evs : List Event) (seq : List Micro) :
    (overBus s evs).withSeq seq = overBus (s.withSeq seq) evs := by
  induction evs generalizing s with
  | nil => rfl
  | cons ev evs ih => exact (ih (overEvent s ev)).trans (by rw [overEvent_seq]; rfl)

/-- A run of events with other lines to run, part by part. -/
theorem overBus_withSeq_eq {s : State} {answers : List Byte} (hp : s.env.lcdParty = .oracle answers)
    (seq : List Micro) (evs : List Event) :
    overBus (s.withSeq seq) evs =
      { evs.foldl pinsAfterEvent s with
        seq := seq, trace := s.trace ++ evs,
        env := { s.env with lcd := lcdOverhears s.busView evs s.env.lcd } } := by
  rw [← overBus_seq, overBus_eq hp]
  rfl

theorem overBus_latch {s : State} {answers : List Byte} (hp : s.env.lcdParty = .oracle answers) (evs : List Event) :
    (overBus s evs).env.lcd.latch = s.env.lcd.latch := by
  rw [overBus_eq hp]
  exact lcdOverhears_latch _ _ _

/-- The event of a line that works the LCD bus without sampling it. -/
def busEvent : Micro → Option Event
  | .ctl rs rw e => some (.ctl rs rw e)
  | .drive b => some (.drive b)
  | .release => some .release
  | .delayBus n => some (.delayBus n)
  | _ => none

/-- Whether no event of a series gives the device a byte. -/
def BusView.givesNone : BusView → List Event → Bool
  | _, [] => true
  | v, ev :: evs => !v.givesByte ev && BusView.givesNone (v.next ev) evs

theorem latchAfter_of_givesByte {s : State} {rs rw e : Bool} (h : s.busView.givesByte (.ctl rs rw e) = false) :
    latchAfter s rs rw e = s.env.lcd.latch := by
  have hends : writePulseEnds s rs rw e = false := by
    by_contra hne
    obtain ⟨he, he', hrw, -, -, hd⟩ := (writePulseEnds_iff s rs rw e).mp (Bool.not_eq_false _ ▸ hne)
    simp [BusView.givesByte, State.busView, he, he', hrw, hd] at h
  simp [latchAfter, hends]

theorem setControlLines_eq_overEvent {s : State} {rs rw e : Bool}
    (h : s.busView.givesByte (.ctl rs rw e) = false) : setControlLines rs rw e s = overEvent s (.ctl rs rw e) := by
  rw [setControlLines, latchAfter_of_givesByte h, ← lcdHears_latch s.busView (.ctl rs rw e) s.env.lcdParty]
  rfl

/-- One bus line that gives the device no byte. -/
theorem step_busLine {s : State} {m : Micro} {ev : Event} {rest : List Micro} (hl : s.env.lcd.latch = none)
    (hs : s.seq = m :: rest) (hm : busEvent m = some ev) (hg : s.busView.givesByte ev = false) :
    step s = .next (overEvent (s.withSeq rest) ev) := by
  cases m with
  | ctl rs rw e =>
    cases hm
    exact step_line hl hs (congrArg _ (setControlLines_eq_overEvent (s := s.withSeq rest) hg))
  | drive | release | delayBus => cases hm; exact step_line hl hs rfl
  | _ => cases hm

/-- A run of bus lines that give the device no byte. -/
theorem overBus_run {s : State} {prog : List Micro} {evs : List Event} {after : List Micro} {answers : List Byte}
    (hl : s.env.lcd.latch = none) (hs : s.seq = prog ++ after) (hp : s.env.lcdParty = .oracle answers)
    (hprog : prog.map busEvent = evs.map some) (hg : s.busView.givesNone evs = true) :
    Reaches s (overBus (s.withSeq after) evs) := by
  induction prog generalizing s evs with
  | nil =>
    obtain rfl : evs = [] := by simpa using hprog.symm
    exact .of_eq (by rw [← show s.seq = after from hs]; rfl)
  | cons m prog ih =>
    cases evs with
    | nil => cases hprog
    | cons ev evs =>
      obtain ⟨hm, hprog⟩ := List.cons.inj hprog
      obtain ⟨hg, hrest⟩ : s.busView.givesByte ev = false ∧ (s.busView.next ev).givesNone evs = true := by
        simpa [BusView.givesNone] using hg
      refine .head (step_busLine hl hs hm hg) ?_
      have hnext := ih (s := overEvent (s.withSeq (prog ++ after)) ev) ((lcdHears_latch _ _ _ _).trans hl)
        (by cases ev <;> rfl) hp hprog
        (by rw [busView_overEvent (s := s.withSeq (prog ++ after)) hp]; exact hrest)
      rwa [overEvent_seq] at hnext

/-! ### The write cycle (R131) -/

theorem busView_of_pinsIdle {s : State} (h : s.pinsIdle = true) :
    s.busView =
      { rs := false, rw := false, e := false, out := false, waited := s.env.lcd.settled, owed := s.env.lcd.owed } := by
  obtain ⟨hrs, hrw, he, -, hd⟩ := (pinsIdle_iff s).mp h
  simp [State.busView, hrs, hrw, he, hd]

/-- The events of the write cycle up to the fall of `E`. -/
def pulseHigh (rs : Bool) (b : Byte) : List Event :=
  [.ctl rs false false, .drive b, .delayBus 1, .ctl rs false true, .delayBus 1]

/-- The same with the fall of `E`, at which the device is given the byte. -/
def pulseTrace (rs : Bool) (b : Byte) : List Event := pulseHigh rs b ++ [.ctl rs false false]

theorem writeTrace_eq (rs : Bool) (b : Byte) : writeTrace rs b = pulseTrace rs b ++ [.delayBus 1, .release] := rfl

/-- The breaches of a write cycle from the idle pin state are those before the byte is given. -/
theorem breaches_pulseTrace (rs : Bool) (b : Byte) (d : LcdDevice) :
    BusView.breaches
      { rs := false, rw := false, e := false, out := false, waited := d.settled, owed := d.owed }
      (pulseTrace rs b) = writeSlips rs d := by
  cases rs <;> cases hs : d.settled <;> cases ho : d.owed <;>
    simp [pulseTrace, pulseHigh, BusView.breaches, BusView.breaks, BusView.next, BusView.givesByte, writeSlips, hs, ho]

/-- After a breach the byte an LCD other than RefLCD is given is logged, and nothing is said of its state. -/
theorem otherReceive_of_slips {d : LcdDevice} (h : d.slips ≠ 0) (rs : Bool) (b : Byte) :
    otherReceive rs b d = lcdUndescribed (lcdAccept rs b d) :=
  if_pos (.inl h)

/-- What an LCD makes of a byte does not depend on its record of the bus, the breaches apart. -/
theorem otherReceive_record (rs : Bool) (b : Byte) (d : LcdDevice) (settled owed : Bool) :
    otherReceive rs b { d with settled := settled, owed := owed } =
      { otherReceive rs b d with settled := settled, owed := owed } := by
  unfold otherReceive
  dsimp only
  split_ifs <;> rfl

/-- Of an LCD that has overheard events before it is given a byte, only how many were breaches matters. -/
theorem otherReceive_lcdOverhears (rs : Bool) (b : Byte) (v : BusView) (evs : List Event) (d : LcdDevice) :
    otherReceive rs b (lcdOverhears v evs d) =
      { otherReceive rs b { d with slips := d.slips + v.breaches evs } with
        settled := (v.after evs).waited, owed := (v.after evs).owed } := by
  by_cases h : v.breaches evs = 0
  · rw [lcdOverhears_kept h, otherReceive_record, h]
    rfl
  · rw [lcdOverhears_broken h, otherReceive_of_slips (by simp [lcdUndescribed, h]),
      otherReceive_of_slips (by simp [h])]
    rfl

theorem otherReceive_latch (rs : Bool) (b : Byte) (d : LcdDevice) : (otherReceive rs b d).latch = d.latch :=
  receive_latch (.oracle []) rs b d

theorem written_latch (answers : List Byte) (rs : Bool) (b : Byte) (d : LcdDevice) :
    (written (.oracle answers) rs b d).latch = d.latch :=
  otherReceive_latch rs b _

/-- The attached LCD, other than RefLCD, has acted on a byte. -/
def State.actsOn (s : State) (rs : Bool) (b : Byte) : State := s.setLcd (otherReceive rs b s.env.lcd)

/-- The end of a write pulse: the device takes the byte, and the attached LCD acts on it before the next line. -/
theorem pulseEnd_run {s : State} {rs : Bool} {b : Byte} {after : List Micro} {answers : List Byte}
    (hl : s.env.lcd.latch = none) (hs : s.seq = .ctl rs false false :: after) (hrs : s.rs = rs) (hrw : s.rw = false)
    (he : s.e = true) (hdout : s.dout = b) (hd : s.ddir = .output) (hp : s.env.lcdParty = .oracle answers) :
    Reaches s ((overEvent (s.withSeq after) (.ctl rs false false)).actsOn rs b) := by
  have htaken : latchAfter (s.withSeq after) rs false false = some (pinWord rs false true b) := by
    simp [latchAfter, writePulseEnds, State.withSeq, hrs, hrw, he, hdout, hd]
  have hstep : step s = .next (setControlLines rs false false (s.withSeq after)) := step_line hl hs rfl
  have hheard : (lcdHears s.busView (.ctl rs false false) s.env.lcdParty s.env.lcd).latch = none :=
    (lcdHears_latch _ _ _ _).trans hl
  refine .head hstep (.head (step_byteWritten htaken) (.of_eq ?_))
  show (overEvent (s.withSeq after) (.ctl rs false false)).setLcd
    (receive s.env.lcdParty rs b
      { lcdHears s.busView (.ctl rs false false) s.env.lcdParty s.env.lcd with latch := none }) = _
  have hparty : ∀ d, receive s.env.lcdParty rs b d = otherReceive rs b d := fun d => by rw [hp]; rfl
  rw [latch_none_eq hheard, hparty]
  rfl

/-- The attached LCD after the last two lines of a write cycle, a delay and the release: a delay has passed. -/
theorem lcdOverhears_writeTail {v : BusView} (he : v.e = false) (d : LcdDevice) :
    lcdOverhears v [.delayBus 1, .release] d = { d with settled := true, owed := v.owed } := by
  rw [lcdOverhears_kept (by simp [BusView.breaches, BusView.breaks, BusView.next, he])]
  simp [BusView.after, BusView.next]

/-- The write cycle up to the end of its pulse; the attached LCD has acted on the byte. -/
theorem pulse_run {s : State} {rs : Bool} {b : Byte} {after : List Micro} {answers : List Byte}
    (hl : s.env.lcd.latch = none) (hs : s.seq = busWrite rs b ++ after) (hi : s.pinsIdle = true)
    (hp : s.env.lcdParty = .oracle answers) :
    Reaches s
      ((overBus (s.withSeq ([.delayBus 1, .release] ++ after)) (pulseTrace rs b)).actsOn rs b) := by
  obtain ⟨-, -, he, -, -⟩ := (pinsIdle_iff s).mp hi
  have hhigh : Reaches s
      (overBus (s.withSeq (.ctl rs false false :: ([.delayBus 1, .release] ++ after))) (pulseHigh rs b)) :=
    overBus_run (prog := [.ctl rs false false, .drive b, .delayBus 1, .ctl rs false true, .delayBus 1]) hl hs hp rfl
      (by simp [pulseHigh, BusView.givesNone, BusView.givesByte, BusView.next, State.busView, he])
  have hlatch := (overBus_latch (s := s.withSeq (.ctl rs false false :: ([.delayBus 1, .release] ++ after))) hp
    (pulseHigh rs b)).trans hl
  have hend := pulseEnd_run (b := b) hlatch rfl rfl rfl rfl rfl rfl hp
  rw [overBus_seq] at hend
  exact hhigh.trans hend

/-- The device has the byte: a ready status is owed (R263). -/
theorem owed_after_pulse (rs : Bool) (b : Byte) (settled owed : Bool) :
    (BusView.after { rs := false, rw := false, e := false, out := false, waited := settled, owed := owed }
      (pulseTrace rs b)).owed = true := by
  simp [BusView.after, pulseTrace, pulseHigh, BusView.next, BusView.givesByte]

/-- What the attached LCD is after a whole write cycle, having acted on the byte before its last two lines. -/
theorem lcdOverhears_written (answers : List Byte) {v v' : BusView} {rs : Bool} {b : Byte} {d : LcdDevice}
    (hv : v = { rs := false, rw := false, e := false, out := false, waited := d.settled, owed := d.owed })
    (he : v'.e = false) (ho : v'.owed = (otherReceive rs b (lcdOverhears v (pulseTrace rs b) d)).owed) :
    lcdOverhears v' [.delayBus 1, .release] (otherReceive rs b (lcdOverhears v (pulseTrace rs b) d)) =
      written (.oracle answers) rs b d := by
  rw [otherReceive_lcdOverhears] at ho
  rw [lcdOverhears_writeTail he, ho, otherReceive_lcdOverhears, hv, breaches_pulseTrace, owed_after_pulse]
  rfl

/-- The state at the end of the write cycle's pulse, part by part. -/
theorem pulse_eq {s : State} {answers : List Byte} (hp : s.env.lcdParty = .oracle answers) (seq : List Micro)
    (rs : Bool) (b : Byte) :
    (overBus (s.withSeq seq) (pulseTrace rs b)).actsOn rs b =
      { s with
        rs := rs, rw := false, e := false, dout := b, ddir := .output, seq := seq,
        trace := s.trace ++ pulseTrace rs b,
        env :=
          { s.env with lcd := otherReceive rs b (lcdOverhears s.busView (pulseTrace rs b) s.env.lcd) } } := by
  rw [overBus_withSeq_eq hp]
  rfl

/-- The last two lines of the write cycle. -/
theorem writeTail_run {s : State} {after : List Micro} {answers : List Byte} (hl : s.env.lcd.latch = none)
    (hs : s.seq = [.delayBus 1, .release] ++ after) (hp : s.env.lcdParty = .oracle answers) :
    Reaches s
      { s with
        dout := 0#8, ddir := .input, seq := after, trace := s.trace ++ [.delayBus 1, .release],
        env := { s.env with lcd := lcdOverhears s.busView [.delayBus 1, .release] s.env.lcd } } := by
  have h := overBus_run (prog := [.delayBus 1, .release]) (evs := [.delayBus 1, .release]) hl hs hp rfl rfl
  rwa [overBus_withSeq_eq hp] at h

/-- The write cycle: `RS` is left as it was set, the other pins are idle again, and the attached LCD has acted on the
byte. -/
theorem busWrite_run {s : State} {rs : Bool} {b : Byte} {after : List Micro} {answers : List Byte}
    (hl : s.env.lcd.latch = none) (hs : s.seq = busWrite rs b ++ after) (hi : s.pinsIdle = true)
    (hp : s.env.lcdParty = .oracle answers) :
    Reaches s
      { s with
        rs := rs, seq := after, trace := s.trace ++ writeTrace rs b,
        env := { s.env with lcd := written s.env.lcdParty rs b s.env.lcd } } := by
  have hview := busView_of_pinsIdle hi
  obtain ⟨hrs, hrw, he, hdout, hd⟩ := (pinsIdle_iff s).mp hi
  have hpulse := pulse_run hl hs hi hp
  rw [pulse_eq hp] at hpulse
  refine hpulse.trans ((writeTail_run (after := after) (answers := answers) ?_ ?_ ?_).trans (.of_eq ?_))
  · exact (otherReceive_latch _ _ _).trans ((lcdOverhears_latch _ _ _).trans hl)
  · rfl
  · exact hp
  rw [lcdOverhears_written answers hview (by rfl) (by rfl), hp, hrw, he, hdout, hd, writeTrace_eq,
    List.append_assoc]

end Sys2Proof.Machine

/-! The wait of spec/41_lcd_driver.md R132 and R133, and a byte written and waited for (R134, R135). -/

namespace Sys2Proof.Machine

/-! ### The wait (R132, R133) -/

/-- The first two events of a wait break the discipline once where the bus was not settled, and else not (R262). -/
theorem lcdOverhears_enterRead (answers : List Byte) {v : BusView} {d : LcdDevice} (hrw : v.rw = false)
    (he : v.e = false) (hout : v.out = false) (hw : v.waited = d.settled) (ho : v.owed = d.owed) :
    lcdOverhears v [.ctl false true false, .delayBus 1] d = settledLcd (.oracle answers) d := by
  cases hs : d.settled with
  | true =>
    have hkept : v.breaches [.ctl false true false, .delayBus 1] = 0 := by
      simp [BusView.breaches, BusView.breaks, he, hout, hw, hs]
    rw [lcdOverhears_kept hkept, settledLcd_of_settled _ hs]
    simp only [BusView.after, List.foldl_cons, List.foldl_nil, BusView.next, BusView.givesByte, he, ho, hw, hs]
    simp [← hs]
  | false =>
    have hbroken : v.breaches [.ctl false true false, .delayBus 1] = 1 := by
      simp [BusView.breaches, BusView.breaks, hrw, hw, hs]
    rw [lcdOverhears_broken (by simp [hbroken]), hbroken, settledLcd, hs]
    simp [BusView.after, BusView.next, BusView.givesByte, lcdUndescribed, he, ho]

/-- The first two lines of a wait, from released data lines and write mode: the block is in read mode. -/
theorem enterRead_run {s : State} {after : List Micro} {answers : List Byte} (hl : s.env.lcd.latch = none)
    (hs : s.seq = [.ctl false true false, .delayBus 1] ++ after) (hrw : s.rw = false) (he : s.e = false)
    (hd : s.ddir = .input) (hp : s.env.lcdParty = .oracle answers) :
    Reaches s
      { s with
        rs := false, rw := true, seq := after, trace := s.trace ++ [.ctl false true false, .delayBus 1],
        env := { s.env with lcd := settledLcd s.env.lcdParty s.env.lcd } } := by
  have hgives : s.busView.givesNone [.ctl false true false, .delayBus 1] = true := by
    simp [BusView.givesNone, BusView.givesByte, State.busView, he]
  have h := overBus_run (prog := [.ctl false true false, .delayBus 1]) hl hs hp rfl hgives
  rw [overBus_withSeq_eq hp, lcdOverhears_enterRead answers hrw he (by simp [State.busView, hd]) rfl rfl, ← hp] at h
  exact h.trans (.of_eq (by rw [he]; rfl))

/-- The end of a wait: the lines go back to write mode, and `Busy` becomes `Ready` (R27(3)). -/
theorem leaveRead_run {s : State} {after : List Micro} (hl : s.env.lcd.latch = none)
    (hs : s.seq = [.ctl false false false, .settleReady] ++ after) (hrs : s.rs = false) (he : s.e = false)
    (hset : s.env.lcd.settled = true) :
    Reaches s
      { s with
        rw := false, lcdst := if s.lcdst = .busy then .ready else s.lcdst, seq := after,
        trace := s.trace ++ [.ctl false false false] } := by
  have hgives : s.busView.givesByte (.ctl false false false) = false := by
    simp [BusView.givesByte, State.busView, he]
  have hkept : lcdHears s.busView (.ctl false false false) s.env.lcdParty s.env.lcd = s.env.lcd :=
    lcdHears_same (by simp [BusView.breaks, State.busView, he, hset]) (by simp [BusView.next, State.busView, he])
      (by simp [BusView.next, BusView.givesByte, State.busView, he]) _
  have hover : overEvent (s.withSeq (.settleReady :: after)) (.ctl false false false) =
      { s with rw := false, seq := .settleReady :: after, trace := s.trace ++ [.ctl false false false] } := by
    show ({ s with
      rs := false, rw := false, e := false, seq := .settleReady :: after,
      trace := s.trace ++ [.ctl false false false],
      env :=
        { s.env with lcd := lcdHears s.busView (.ctl false false false) s.env.lcdParty s.env.lcd } } : State) = _
    rw [hkept, hrs, he]
  have hstep := step_busLine (rest := .settleReady :: after) hl hs rfl hgives
  rw [hover] at hstep
  exact .head hstep <| .line hl rfl rfl (.of_eq (settleReady_eq _))

/-- The poll loop from read mode: busy answers keep it going, the first ready one ends it (R133). -/
theorem polls_run {s : State} {w : Wait} {rest : List Byte} {after : List Micro} (hl : s.env.lcd.latch = none)
    (hs : s.seq = pollBody ++ after) (hrs : s.rs = false) (hrw : s.rw = true) (he : s.e = false)
    (hd : s.ddir = .input) (hset : s.env.lcd.settled = true) (hw : w.ok = true)
    (hp : s.env.lcdParty = .oracle (w.answers ++ rest)) :
    Reaches s
      { s with
        trace := s.trace ++ w.answers.flatMap pollTrace, poll := w.ready, seq := after,
        env := { s.env with lcdParty := .oracle rest, lcd := { s.env.lcd with owed := false } } } := by
  obtain ⟨busy, ready⟩ := w
  obtain ⟨hbusy, hready⟩ : busy.all busyFlag = true ∧ busyFlag ready = false := by simpa [Wait.ok] using hw
  induction busy generalizing s with
  | nil =>
    refine (poll_round hl hs hrs hrw he hd hp).trans (.of_eq ?_)
    simp [hready, Wait.answers, settledLcd_of_settled _ hset]
  | cons b busy ih =>
    obtain ⟨hb, hbusy⟩ : busyFlag b = true ∧ busy.all busyFlag = true := by simpa using hbusy
    refine (poll_round hl hs hrs hrw he hd hp).trans ?_
    simp only [hb, if_true, settledLcd_of_settled _ hset]
    refine (ih (by exact hl) (by exact hs) (by exact hrs) (by exact hrw) (by exact he) (by exact hd) (by exact hset)
      (by simp [Wait.ok, hbusy, hready]) (by rfl) hbusy).trans (.of_eq ?_)
    simp [Wait.answers]

/-- From the head of the poll loop to the end of the wait. -/
theorem waitEnd_run {s : State} {w : Wait} {rest : List Byte} {after : List Micro} (hl : s.env.lcd.latch = none)
    (hs : s.seq = pollBody ++ ([.ctl false false false, .settleReady] ++ after)) (hrs : s.rs = false)
    (hrw : s.rw = true) (he : s.e = false) (hd : s.ddir = .input) (hset : s.env.lcd.settled = true)
    (hw : w.ok = true) (hp : s.env.lcdParty = .oracle (w.answers ++ rest)) :
    Reaches s
      { s with
        rw := false, lcdst := if s.lcdst = .busy then .ready else s.lcdst,
        trace := s.trace ++ w.answers.flatMap pollTrace ++ [.ctl false false false], poll := w.ready, seq := after,
        env := { s.env with lcdParty := .oracle rest, lcd := { s.env.lcd with owed := false } } } :=
  (polls_run hl hs hrs hrw he hd hset hw hp).trans
    (leaveRead_run (by exact hl) (by rfl) (by exact hrs) (by exact he) (by exact hset))

/-- A whole wait, from released data lines and write mode. -/
theorem waitReady_run {s : State} {w : Wait} {rest : List Byte} {after : List Micro} (hl : s.env.lcd.latch = none)
    (hs : s.seq = waitReadyLines ++ after) (hrw : s.rw = false) (he : s.e = false) (hd : s.ddir = .input)
    (hw : w.ok = true) (hp : s.env.lcdParty = .oracle (w.answers ++ rest)) :
    Reaches s
      { afterWait w rest s with
        rs := false, lcdst := if s.lcdst = .busy then .ready else s.lcdst, seq := after } := by
  have hread := enterRead_run (after := pollBody ++ ([.ctl false false false, .settleReady] ++ after)) hl hs hrw he hd
    hp
  rw [hp] at hread
  refine hread.trans ((waitEnd_run (w := w) (rest := rest) (after := after) ?_ ?_ ?_ ?_ ?_ ?_ ?_ hw ?_).trans
    (.of_eq ?_))
  · exact (settledLcd_latch _ _).trans hl
  · rfl
  · rfl
  · rfl
  · exact he
  · exact hd
  · rfl
  · exact hp
  · simp [afterWait, waitTrace, hrw, rested, hp]

/-! ### A byte written and waited for (R134, R135) -/

theorem markBusy_eq (s : State) :
    markBusy s = { s with lcdst := if s.lcdst = .ready then .busy else s.lcdst } := by
  unfold markBusy
  split
  · rfl
  · rfl

/-- From a write's first line to the head of its poll loop. -/
theorem toPollLoop_run {s : State} {rs : Bool} {b : Byte} {after : List Micro} {answers : List Byte}
    (hl : s.env.lcd.latch = none) (hs : s.seq = writeLines rs b ++ after) (hi : s.pinsIdle = true)
    (hp : s.env.lcdParty = .oracle answers) :
    Reaches s
      { atPollLoop rs b (s.withSeq after) with lcdst := if s.lcdst = .ready then .busy else s.lcdst } := by
  obtain ⟨hrs, hrw, he, -, hd⟩ := (pinsIdle_iff s).mp hi
  have hlatch : (written s.env.lcdParty rs b s.env.lcd).latch = none := by rw [hp, written_latch, hl]
  have hwrite := busWrite_run (rs := rs) (b := b) (after := .markBusy :: (waitReadyLines ++ after)) hl
    (by simp [hs, writeLines]) hi hp
  refine hwrite.trans ?_
  refine .line hlatch rfl rfl ?_
  rw [markBusy_eq]
  refine (enterRead_run (answers := answers)
    (after := pollBody ++ ([.ctl false false false, .settleReady] ++ after)) ?_ ?_ ?_ ?_ ?_ ?_).trans (.of_eq ?_)
  · exact hlatch
  · rfl
  · exact hrw
  · exact he
  · exact hd
  · exact hp
  · have hset : (written s.env.lcdParty rs b s.env.lcd).settled = true := by rw [hp]; rfl
    simp [atPollLoop, State.withSeq, settledLcd_of_settled _ hset, hrs, Config.rsInstr, Config.rwWrite]

/-- What the driver's record of the LCD is after a write and its wait: `Ready`, but `Uninitialized` where it was
(R27). -/
def afterWrite : LcdStatus → LcdStatus
  | .uninitialized => .uninitialized
  | .ready => .ready
  | .busy => .ready

/-- A write and its wait, from the idle pin state. -/
theorem writeLines_run {s : State} {rs : Bool} {b : Byte} {w : Wait} {rest : List Byte} {after : List Micro}
    (hl : s.env.lcd.latch = none) (hs : s.seq = writeLines rs b ++ after) (hi : s.pinsIdle = true)
    (hw : w.ok = true) (hp : s.env.lcdParty = .oracle (w.answers ++ rest)) :
    Reaches s { afterWrites [⟨rs, b, w⟩] rest s with lcdst := afterWrite s.lcdst, seq := after } := by
  obtain ⟨hrs, hrw, he, -, hd⟩ := (pinsIdle_iff s).mp hi
  refine (toPollLoop_run hl hs hi hp).trans ((waitEnd_run (w := w) (rest := rest) (after := after)
    ?_ ?_ ?_ ?_ ?_ ?_ ?_ hw ?_).trans (.of_eq ?_))
  · show (written s.env.lcdParty rs b s.env.lcd).latch = none
    rw [hp, written_latch, hl]
  · rfl
  · exact hrs
  · rfl
  · exact he
  · exact hd
  · show (written s.env.lcdParty rs b s.env.lcd).settled = true
    rw [hp]
    rfl
  · exact hp
  · cases hst : s.lcdst <;>
      simp [atPollLoop, State.withSeq, afterWrites, afterWrite, receiveAll, traceOf, ByteWrite.trace, waitTrace,
        lastPoll, hp, hrw, hst, rested, written, settledLcd]

end Sys2Proof.Machine

/-! The operations of the LCD protocol driver, spec/41_lcd_driver.md R133 to R139, made of waits and writes. -/

namespace Sys2Proof.Machine

/-! ### A series of writes -/

theorem afterWrite_of_ne_busy {st : LcdStatus} (h : st ≠ .busy) : afterWrite st = st := by
  cases st with
  | busy => exact absurd rfl h
  | uninitialized | ready => rfl

theorem afterWrite_of_ne_uninitialized {st : LcdStatus} (h : st ≠ .uninitialized) : afterWrite st = .ready := by
  cases st with
  | uninitialized => exact absurd rfl h
  | busy | ready => rfl

/-- The first of a series of writes, and then the others. -/
theorem afterWrites_cons {s : State} {answers : List Byte} (hp : s.env.lcdParty = .oracle answers) (w : ByteWrite)
    (ws : List ByteWrite) (more rest : List Byte) :
    afterWrites ws rest (afterWrites [w] more s) = afterWrites (w :: ws) rest s := by
  simp only [afterWrites, traceOf, hp, List.flatMap_cons, List.flatMap_nil, List.append_nil, List.append_assoc]
  rfl

/-- Nothing written. -/
theorem afterWrites_nil {s : State} {rest : List Byte} (hp : s.env.lcdParty = .oracle rest) :
    afterWrites [] rest s = s := by
  simp only [afterWrites, traceOf, List.flatMap_nil, List.append_nil, ← hp]
  rfl

theorem receiveAll_latch (answers : List Byte) (ws : List ByteWrite) (d : LcdDevice) :
    (receiveAll (.oracle answers) ws d).latch = d.latch := by
  induction ws generalizing d with
  | nil => rfl
  | cons w ws ih => exact (ih _).trans ((rested_latch _ _).trans (written_latch _ _ _ _))

theorem afterWrites_latch {s : State} {answers : List Byte} (hp : s.env.lcdParty = .oracle answers)
    (ws : List ByteWrite) (rest : List Byte) : (afterWrites ws rest s).env.lcd.latch = s.env.lcd.latch := by
  show (receiveAll s.env.lcdParty ws s.env.lcd).latch = _
  rw [hp, receiveAll_latch]

/-- The state with another record of the LCD and other lines still to run. -/
def State.goesOn (s : State) (lcdst : LcdStatus) (seq : List Micro) : State := { s with lcdst := lcdst, seq := seq }

theorem afterWrites_goesOn (s : State) (ws : List ByteWrite) (rest : List Byte) (st st' : LcdStatus)
    (seq seq' : List Micro) :
    (afterWrites ws rest (s.goesOn st seq)).goesOn st' seq' = (afterWrites ws rest s).goesOn st' seq' := rfl

/-- A write, and from there on the others of a series. -/
theorem goesOn_afterWrites_cons {s : State} {answers : List Byte} (hp : s.env.lcdParty = .oracle answers)
    (w : ByteWrite) (ws : List ByteWrite) (more rest : List Byte) (st st' : LcdStatus) (seq seq' : List Micro) :
    (afterWrites ws rest ((afterWrites [w] more s).goesOn st seq)).goesOn st' seq' =
      (afterWrites (w :: ws) rest s).goesOn st' seq' :=
  (afterWrites_goesOn _ ws rest st st' seq seq').trans
    (congrArg (State.goesOn · st' seq') (afterWrites_cons hp w ws more rest))

theorem goesOn_afterWrites_nil {s : State} {rest : List Byte} (hp : s.env.lcdParty = .oracle rest) :
    (afterWrites [] rest s).goesOn s.lcdst s.seq = s := by
  rw [afterWrites_nil hp]
  rfl

/-- The lines of a series of bytes, each written and waited for. -/
def seriesLines (bytes : List (Bool × Byte)) : List Micro := bytes.flatMap (fun p => writeLines p.1 p.2)

/-- A wait from the idle pin state. -/
theorem wait_run {s : State} {w : Wait} {rest : List Byte} {after : List Micro} (hl : s.env.lcd.latch = none)
    (hs : s.seq = waitReadyLines ++ after) (hi : s.pinsIdle = true) (hw : w.ok = true)
    (hp : s.env.lcdParty = .oracle (w.answers ++ rest)) :
    Reaches s ((afterWait w rest s).goesOn (if s.lcdst = .busy then .ready else s.lcdst) after) := by
  obtain ⟨hrs, hrw, he, -, hd⟩ := (pinsIdle_iff s).mp hi
  exact (waitReady_run hl hs hrw he hd hw hp).trans (.of_eq (by rw [← hrs]; rfl))

/-- The first of a series of writes: the others' answers are left. -/
theorem firstWrite_run {s : State} {w : ByteWrite} {ws : List ByteWrite} {rest : List Byte} {after : List Micro}
    (hl : s.env.lcd.latch = none) (hs : s.seq = writeLines w.rs w.byte ++ after) (hi : s.pinsIdle = true)
    (hw : w.wait.ok = true) (hp : s.env.lcdParty = .oracle (answersOf (w :: ws) ++ rest)) :
    Reaches s ((afterWrites [w] (answersOf ws ++ rest) s).goesOn (afterWrite s.lcdst) after) := by
  have hanswers : answersOf (w :: ws) ++ rest = w.wait.answers ++ (answersOf ws ++ rest) := by simp [answersOf]
  exact writeLines_run hl hs hi hw (hp.trans (congrArg _ hanswers))

/-- A series of writes, `LCDST` not `Busy`: it is the same after each. -/
theorem series_run {s : State} {ws : List ByteWrite} {rest : List Byte} {after : List Micro}
    (hl : s.env.lcd.latch = none) (hs : s.seq = seriesLines (ws.map ByteWrite.sent) ++ after)
    (hi : s.pinsIdle = true) (hst : s.lcdst ≠ .busy) (hws : ∀ w ∈ ws, w.wait.ok = true)
    (hp : s.env.lcdParty = .oracle (answersOf ws ++ rest)) :
    Reaches s ((afterWrites ws rest s).goesOn s.lcdst after) := by
  induction ws generalizing s with
  | nil =>
    obtain rfl : s.seq = after := hs
    exact .of_eq (goesOn_afterWrites_nil hp).symm
  | cons w ws ih =>
    obtain ⟨hw, hws⟩ := List.forall_mem_cons.mp hws
    have hfirst := firstWrite_run (after := seriesLines (ws.map ByteWrite.sent) ++ after) hl
      (by simpa [seriesLines, ByteWrite.sent] using hs) hi hw hp
    rw [afterWrite_of_ne_busy hst] at hfirst
    refine hfirst.trans ((ih ?_ ?_ ?_ ?_ hws ?_).trans (.of_eq ?_))
    · exact (afterWrites_latch hp [w] _).trans hl
    · rfl
    · exact hi
    · exact hst
    · rfl
    · exact goesOn_afterWrites_cons hp w ws _ rest _ _ _ _

/-- A series of writes, the first of them from an initialised LCD. -/
theorem writes_run {s : State} {w : ByteWrite} {ws : List ByteWrite} {rest : List Byte} {after : List Micro}
    (hl : s.env.lcd.latch = none) (hs : s.seq = seriesLines ((w :: ws).map ByteWrite.sent) ++ after)
    (hi : s.pinsIdle = true) (hst : s.lcdst ≠ .uninitialized) (hws : ∀ v ∈ w :: ws, v.wait.ok = true)
    (hp : s.env.lcdParty = .oracle (answersOf (w :: ws) ++ rest)) :
    Reaches s ((afterWrites (w :: ws) rest s).goesOn .ready after) := by
  obtain ⟨hw, hws⟩ := List.forall_mem_cons.mp hws
  have hfirst := firstWrite_run (after := seriesLines (ws.map ByteWrite.sent) ++ after) hl
    (by simpa [seriesLines, ByteWrite.sent] using hs) hi hw hp
  rw [afterWrite_of_ne_uninitialized hst] at hfirst
  refine hfirst.trans ((series_run (after := after) (rest := rest) ?_ ?_ ?_ ?_ hws ?_).trans (.of_eq ?_))
  · exact (afterWrites_latch hp [w] _).trans hl
  · rfl
  · exact hi
  · nofun
  · rfl
  · exact goesOn_afterWrites_cons hp w ws _ rest _ _ _ _

/-- The character loop of `writeLine`: one data byte for each character, in ascending order (R137). -/
theorem text_run {s : State} {text : List Byte} {ws : List ByteWrite} {rest : List Byte} {after : List Micro}
    (hl : s.env.lcd.latch = none) (hs : s.seq = .writeText text :: after) (hi : s.pinsIdle = true)
    (hst : s.lcdst ≠ .busy) (ht : textOk text = true) (hws : ∀ w ∈ ws, w.wait.ok = true)
    (hsent : ws.map ByteWrite.sent = text.map (fun c => (true, Config.charmap c)))
    (hp : s.env.lcdParty = .oracle (answersOf ws ++ rest)) :
    Reaches s ((afterWrites ws rest s).goesOn s.lcdst after) := by
  induction text generalizing s ws with
  | nil =>
    obtain rfl : ws = [] := by simpa using hsent
    exact .line hl hs rfl (.of_eq (goesOn_afterWrites_nil (s := s.withSeq after) hp).symm)
  | cons c text ih =>
    cases ws with
    | nil => cases hsent
    | cons w ws =>
      obtain ⟨hw, hws⟩ := List.forall_mem_cons.mp hws
      obtain ⟨hbyte, hsent⟩ := List.cons.inj hsent
      obtain ⟨hc, ht⟩ : c ≠ Config.terminator ∧ textOk text = true := by simpa [textOk] using ht
      have hline : lineTurn (.writeText (c :: text)) (s.withSeq after) =
          .state (s.withSeq (writeLines w.rs w.byte ++ .writeText text :: after)) := by
        obtain ⟨hrs, hb⟩ := Prod.mk.inj hbyte
        simp [lineTurn, writeText, hc, hrs, hb, Config.rsData, State.pushSeq, State.withSeq]
      have hfirst := firstWrite_run (s := s.withSeq (writeLines w.rs w.byte ++ .writeText text :: after)) hl rfl hi hw
        hp
      rw [afterWrite_of_ne_busy (by exact hst)] at hfirst
      refine .line hl hs hline (hfirst.trans ((ih ?_ ?_ ?_ ?_ ht hws hsent ?_).trans (.of_eq ?_)))
      · exact (afterWrites_latch hp [w] _).trans hl
      · rfl
      · exact hi
      · exact hst
      · rfl
      · exact goesOn_afterWrites_cons hp w ws _ rest _ _ _ _

/-! ### The operations of the host -/

/-- An operation that issues a call, accepted at its entry, goes on with the lines of the call. -/
theorem passesThrough_of_call {i : Instr} {c : LcdCall} {s u : State} (hexec : exec i s = issueCall c [] s)
    (hentry : entryRefusal c s = none) (hrun : Reaches (s.withSeq (callLines c ++ s.seq)) u) :
    PassesThrough i s u := by
  refine ⟨_, hexec.trans (issueCall_of_entry [] hentry), ?_⟩
  rwa [List.append_nil]

/-- Settles O14: the wait from the idle pin state. -/
theorem waitReadyPollsUntilReady : Obligations.WaitReadyPollsUntilReady := by
  intro s w rest hi hl hw hp
  have hentry : entryRefusal .waitReady s = none := (entryRefusal_none_iff _ s).mpr ⟨rfl, hi, nofun⟩
  exact ⟨passesThrough_of_call rfl hentry (wait_run (s := s.withSeq (callLines .waitReady ++ s.seq)) hl rfl hi hw hp),
    rfl⟩

/-- A write issued by the host, `rs` telling which: `Busy` at the head of its poll loop, `Ready` after its wait. -/
theorem write_completes {i : Instr} {c : LcdCall} {rs : Bool} {b : Byte} {s : State} {w : Wait} {rest : List Byte}
    (hexec : exec i s = issueCall c [] s) (hentry : entryRefusal c s = none) (hlines : callLines c = writeLines rs b)
    (hi : s.pinsIdle = true) (hst : s.lcdst ≠ .uninitialized) (hl : s.env.lcd.latch = none) (hw : w.ok = true)
    (hp : s.env.lcdParty = .oracle (w.answers ++ rest)) :
    PassesThrough i s (atPollLoop rs b s)
      ∧ Completes i s { afterWrites [⟨rs, b, w⟩] rest s with lcdst := .ready } := by
  have hseq : (s.withSeq (callLines c ++ s.seq)).seq = writeLines rs b ++ s.seq := congrArg (· ++ s.seq) hlines
  have hloop := toPollLoop_run (s := s.withSeq (callLines c ++ s.seq)) hl hseq hi hp
  have hwhole := writeLines_run (s := s.withSeq (callLines c ++ s.seq)) hl hseq hi hw hp
  refine ⟨passesThrough_of_call hexec hentry (hloop.trans (.of_eq ?_)),
    passesThrough_of_call hexec hentry (hwhole.trans (.of_eq ?_)), rfl⟩
  · have hbusy : (if s.lcdst = .ready then .busy else s.lcdst) = LcdStatus.busy := by
      cases h : s.lcdst with
      | uninitialized => exact absurd h hst
      | ready | busy => rfl
    exact congrArg (fun st => { atPollLoop rs b s with lcdst := st }) hbusy
  · exact congrArg (fun st => { afterWrites [⟨rs, b, w⟩] rest s with lcdst := st })
      (afterWrite_of_ne_uninitialized hst)

/-- A writing operation is accepted with idle pins and an initialised LCD, its operand in its domain (R130). -/
theorem entryRefusal_initialized {c : LcdCall} {s : State} (hc : badOperand c = false) (hi : s.pinsIdle = true)
    (hst : s.lcdst ≠ .uninitialized) : entryRefusal c s = none :=
  (entryRefusal_none_iff c s).mpr ⟨hc, hi, fun _ => hst⟩

/-- Settles O15: a write with `RS` low. -/
theorem writeInstructionWritesAndWaits : Obligations.WriteInstructionWritesAndWaits :=
  fun _ code _ _ hi hst hl hw hp =>
    write_completes (c := .writeInstruction code) rfl (entryRefusal_initialized rfl hi hst) rfl hi hst hl hw hp

/-- Settles O16: a write with `RS` high, of the byte and of the character's byte. -/
theorem writeDataAndWriteCharWriteAndWait : Obligations.WriteDataAndWriteCharWriteAndWait :=
  fun _ b _ _ hi hst hl hw hp =>
    ⟨write_completes (c := .writeData b) rfl (entryRefusal_initialized rfl hi hst) rfl hi hst hl hw hp,
      write_completes (c := .writeChar b) rfl (entryRefusal_initialized rfl hi hst) rfl hi hst hl hw hp⟩

/-- The bytes of `clear` in order (R139). -/
theorem callLines_clear : callLines .clear = seriesLines (sends .clear) := rfl

/-- The bytes of `initializeLcd` in order, after a wait and before the record becomes `Ready` (R136). -/
theorem callLines_initializeLcd :
    callLines .initializeLcd = waitReadyLines ++ (seriesLines (sends .initializeLcd) ++ [.markReady]) := rfl

/-- The lines of `writeLine`: the set-address byte of the line, then its characters (R137). -/
theorem callLines_writeLine (i : Nat) (text : List Byte) :
    callLines (.writeLine i text) = writeLines false (lineAddressByte i) ++ [.writeText text] := rfl

/-- Settles O19: a series of two bytes. -/
theorem clearSendsClearThenHome : Obligations.ClearSendsClearThenHome := by
  intro s ws rest hi hst hl hws hsent hp
  cases ws with
  | nil => cases hsent
  | cons w ws =>
    have hseq : (s.withSeq (callLines .clear ++ s.seq)).seq = seriesLines ((w :: ws).map ByteWrite.sent) ++ s.seq := by
      rw [hsent, callLines_clear]; rfl
    exact ⟨passesThrough_of_call rfl (entryRefusal_initialized rfl hi hst)
      (writes_run (s := s.withSeq (callLines .clear ++ s.seq)) hl hseq hi hst hws hp), rfl⟩

/-- The lines of `initializeLcd` from the idle pin state, whatever the record of the LCD is (R136). -/
theorem initializeLcd_run {s : State} {lead : Wait} {ws : List ByteWrite} {rest : List Byte} {after : List Micro}
    (hl : s.env.lcd.latch = none) (hs : s.seq = callLines .initializeLcd ++ after) (hi : s.pinsIdle = true)
    (hlead : lead.ok = true) (hws : ∀ w ∈ ws, w.wait.ok = true) (hsent : ws.map ByteWrite.sent = sends .initializeLcd)
    (hp : s.env.lcdParty = .oracle (lead.answers ++ (answersOf ws ++ rest))) :
    Reaches s ((afterWrites ws rest (afterWait lead (answersOf ws ++ rest) s)).goesOn .ready after) := by
  have hlines : s.seq = waitReadyLines ++ (seriesLines (ws.map ByteWrite.sent) ++ .markReady :: after) := by
    rw [hs, callLines_initializeLcd, hsent, List.append_assoc, List.append_assoc]
    rfl
  have hlatch : (rested s.env.lcdParty s.env.lcd).latch = none := (rested_latch _ _).trans hl
  refine (wait_run hl hlines hi hlead hp).trans
    ((series_run (ws := ws) (rest := rest) (after := .markReady :: after) ?_ ?_ ?_ ?_ hws ?_).trans ?_)
  · exact hlatch
  · rfl
  · exact hi
  · show (if s.lcdst = .busy then LcdStatus.ready else s.lcdst) ≠ .busy
    split
    · nofun
    · assumption
  · rfl
  · exact .line ((afterWrites_latch rfl ws rest).trans hlatch) rfl rfl (.refl _)

/-- Settles O17: the leading wait, the series of five bytes, and the record made `Ready`. -/
theorem initializeRunsTheFixedSequence : Obligations.InitializeRunsTheFixedSequence := by
  intro s lead ws rest hi hl hlead hws hsent hp
  have hentry : entryRefusal .initializeLcd s = none := (entryRefusal_none_iff _ s).mpr ⟨rfl, hi, nofun⟩
  rw [List.append_assoc] at hp
  have hrun := initializeLcd_run (s := s.withSeq (callLines .initializeLcd ++ s.seq)) hl rfl hi hlead hws hsent hp
  exact ⟨passesThrough_of_call rfl hentry hrun, rfl⟩

/-- The set-address byte of a line, by the parameters (R97). -/
theorem lineAddressByte_eq (line : Fin 2) :
    lineAddressByte line.val = Config.opSetDdram ||| (if line = 0 then 0x00#8 else 0x40#8) := by
  revert line; decide

/-- The lines of `writeLine` from the idle pin state and an initialised LCD (R137). -/
theorem writeLine_run {s : State} {line : Fin 2} {text : List Byte} {ws : List ByteWrite} {rest : List Byte}
    {after : List Micro} (hl : s.env.lcd.latch = none)
    (hs : s.seq = callLines (.writeLine line.val text) ++ after) (hi : s.pinsIdle = true)
    (hst : s.lcdst ≠ .uninitialized) (ht : textOk text = true) (hws : ∀ w ∈ ws, w.wait.ok = true)
    (hsent : ws.map ByteWrite.sent =
      (false, lineAddressByte line.val) :: text.map (fun c => (true, Config.charmap c)))
    (hp : s.env.lcdParty = .oracle (answersOf ws ++ rest)) :
    Reaches s ((afterWrites ws rest s).goesOn .ready after) := by
  cases ws with
  | nil => cases hsent
  | cons w ws =>
    obtain ⟨hw, hws⟩ := List.forall_mem_cons.mp hws
    obtain ⟨hbyte, hsent⟩ := List.cons.inj hsent
    obtain ⟨hrs, hb⟩ := Prod.mk.inj hbyte
    have hlines : s.seq = writeLines w.rs w.byte ++ .writeText text :: after := by
      rw [hs, callLines_writeLine, hrs, hb, List.append_assoc]
      rfl
    have hfirst := firstWrite_run hl hlines hi hw hp
    rw [afterWrite_of_ne_uninitialized hst] at hfirst
    have hlatch := (afterWrites_latch hp [w] (answersOf ws ++ rest)).trans hl
    refine hfirst.trans ((text_run (rest := rest) (after := after) ?_ ?_ ?_ ?_ ht hws hsent ?_).trans
      (.of_eq ?_))
    · exact hlatch
    · rfl
    · exact hi
    · nofun
    · rfl
    · exact goesOn_afterWrites_cons hp w ws _ rest _ _ _ _

end Sys2Proof.Machine

/-! What a line written by `writeLine` shows on an LCD other than RefLCD (spec/41_lcd_driver.md R137, spec/20_memory.md
R52, spec/70_reset_and_hazards.md R265). -/

namespace Sys2Proof.Machine

/-- An LCD at rest between writes that the spec describes, its entry mode incrementing (R52, R262, R263). -/
structure ReadyForText (d : LcdDevice) : Prop where
  settled : d.settled = true
  owed : d.owed = false
  described : lcdDescribed d = true
  increment : d.increment = true
  wf : Memory.wf d.ddram = true

/-- At rest, a write cycle and its wait make of the LCD what the byte does by its value. -/
theorem rested_written {d : LcdDevice} (hs : d.settled = true) (ho : d.owed = false) (answers : List Byte) (rs : Bool)
    (b : Byte) :
    rested (.oracle answers) (written (.oracle answers) rs b d) =
      { otherReceive rs b d with settled := true, owed := false } := by
  simp [rested, settledLcd, written, writeSlips_zero hs ho]

theorem describedByte_lineAddress (line : Fin 2) : describedByte false (lineAddressByte line.val) = true := by
  revert line; decide

/-- The first address of a line (R60). -/
def lineBase (line : Fin 2) : Nat := if line = 0 then 0 else 64

theorem lineAddressByte_value (line : Fin 2) :
    lineAddressByte line.val = setDdramAddrByte (BitVec.ofNat 7 (lineBase line)) := by
  revert line; decide

/-- The set-address byte of a line puts the pointer at its first position and changes no cell. -/
theorem otherReceive_lineAddress {d : LcdDevice} (hd : lcdDescribed d = true) (line : Fin 2) :
    otherReceive false (lineAddressByte line.val) d =
      lcdPointAt (BitVec.ofNat 7 (lineBase line)) (lcdAccept false (lineAddressByte line.val) d) := by
  have hacc := lcdDescribed_accept_of hd (describedByte_lineAddress line)
  obtain ⟨-, hother⟩ := actsByValue_setDdramAddr (BitVec.ofNat 7 (lineBase line)) d
  rw [← lineAddressByte_value] at hother
  exact (hother hacc).symm

/-- A data byte within the character positions of a line is stored at the pointer, which then moves. -/
theorem otherReceive_text {d : LcdDevice} (hd : lcdDescribed d = true)
    (hcol : d.ac.toNat % 64 < d.cols.getD Config.lcdCols) (b : Byte) :
    otherReceive true b d =
      { lcdAccept true b d with
        ddram := Memory.write d.ddram d.ac.toNat b, ac := nextAddress (lcdAccept true b d) } := by
  rw [otherReceive_data (lcdDescribed_accept_of hd rfl)]
  exact lcdStore_within (d := lcdAccept true b d) hcol b

/-- One character within the positions of a line, written and waited for. -/
theorem readyForText_char {d : LcdDevice} (hr : ReadyForText d) (hcol : d.ac.toNat % 64 < d.cols.getD Config.lcdCols)
    (answers : List Byte) (b : Byte) :
    ∃ d', rested (.oracle answers) (written (.oracle answers) true b d) = d' ∧ ReadyForText d' ∧ d'.cols = d.cols
      ∧ d'.ddram = Memory.write d.ddram d.ac.toNat b
      ∧ (d.ac.toNat % 64 + 1 < min 64 (d.cols.getD Config.lcdCols) → d'.ac.toNat = d.ac.toNat + 1) := by
  have hdescribed : lcdDescribed (lcdAccept true b d) = true := lcdDescribed_accept_of hr.described rfl
  refine ⟨_, rested_written hr.settled hr.owed answers true b, ?_⟩
  rw [otherReceive_text hr.described hcol]
  exact ⟨⟨rfl, rfl, hdescribed, hr.increment, Memory.write_wf b hr.wf d.ac.isLt⟩, rfl, rfl,
    fun h => nextAddress_toNat_up (d := lcdAccept true b d) hr.increment h⟩

/-- Cells after a first character at `x` and the rest of a text behind it. -/
theorem getD_cons_shift (b : Byte) (bs : List Byte) (x a : Nat) (old : Byte) :
    (if x + 1 ≤ a then bs.getD (a - (x + 1)) (if a = x then b else old) else if a = x then b else old) =
      if x ≤ a then (b :: bs).getD (a - x) old else old := by
  rcases Nat.lt_trichotomy a x with h | rfl | h
  · rw [if_neg (by omega), if_neg (by omega), if_neg (by omega)]
  · rw [if_neg (by omega), if_pos rfl, if_pos (Nat.le_refl a), Nat.sub_self, List.getD_cons_zero]
  · obtain ⟨k, rfl⟩ : ∃ k, a = x + 1 + k := ⟨a - (x + 1), by omega⟩
    have hk : x + 1 + k - x = k + 1 := by omega
    rw [if_pos (by omega), if_neg (by omega), if_pos (by omega), hk, Nat.add_sub_cancel_left, List.getD_cons_succ]

/-- The characters of a text that fits what is left of the line stand from the pointer on, and every other cell is as
it was. -/
theorem read_receiveAll_text (answers : List Byte) {d : LcdDevice} {text : List Byte} {ws : List ByteWrite}
    (x : Nat) (hr : ReadyForText d) (hsent : ws.map ByteWrite.sent = text.map (fun c => (true, Config.charmap c)))
    (hac : text ≠ [] → d.ac.toNat = x) (hcols : x % 64 + text.length ≤ d.cols.getD Config.lcdCols)
    (hspan : x % 64 + text.length ≤ 64) (a : Nat) :
    Memory.read (receiveAll (.oracle answers) ws d).ddram a =
      if x ≤ a then (text.map Config.charmap).getD (a - x) (Memory.read d.ddram a) else Memory.read d.ddram a := by
  induction text generalizing ws d x with
  | nil =>
    obtain rfl : ws = [] := by simpa using hsent
    simp [receiveAll]
  | cons c text ih =>
    cases ws with
    | nil => cases hsent
    | cons w ws =>
      obtain ⟨hbyte, hsent⟩ := List.cons.inj hsent
      obtain ⟨hrs, hb⟩ := Prod.mk.inj hbyte
      obtain rfl := hac (List.cons_ne_nil _ _)
      rw [List.length_cons] at hcols hspan
      obtain ⟨d', hd', hr', hcols', hddram, hnext⟩ :=
        readyForText_char hr (by omega) answers (Config.charmap c)
      have hlcd : receiveAll (.oracle answers) (w :: ws) d = receiveAll (.oracle answers) ws d' := by
        rw [← hd', ← hrs, ← hb]; rfl
      have hac' : text ≠ [] → d'.ac.toNat = d.ac.toNat + 1 := fun ht => by
        have hlen := List.length_pos_of_ne_nil ht
        exact hnext (by omega)
      rw [hlcd, ih (d.ac.toNat + 1) hr' hsent hac' (by rw [hcols']; omega) (by omega), hddram,
        Memory.read_write hr.wf, List.map_cons]
      exact getD_cons_shift _ _ _ _ _

theorem lineBase_toNat (line : Fin 2) : (BitVec.ofNat 7 (lineBase line)).toNat = lineBase line := by
  revert line; decide

theorem lineBase_mod (line : Fin 2) : lineBase line % 64 = 0 := by
  revert line; decide

/-- The set-address byte of a line, written and waited for. -/
theorem readyForText_lineAddress {d : LcdDevice} (hr : ReadyForText d) (answers : List Byte) (line : Fin 2) :
    ∃ d', rested (.oracle answers) (written (.oracle answers) false (lineAddressByte line.val) d) = d'
      ∧ ReadyForText d' ∧ d'.cols = d.cols ∧ d'.ddram = d.ddram ∧ d'.ac.toNat = lineBase line := by
  have hdescribed : lcdDescribed (lcdAccept false (lineAddressByte line.val) d) = true :=
    lcdDescribed_accept_of hr.described (describedByte_lineAddress line)
  refine ⟨_, rested_written hr.settled hr.owed answers false (lineAddressByte line.val), ?_⟩
  rw [otherReceive_lineAddress hr.described]
  exact ⟨⟨rfl, rfl, hdescribed, hr.increment, hr.wf⟩, rfl, rfl, lineBase_toNat line⟩

/-- A line that fits shows its text from the first position on, and every other cell is as it was (R137, R265). -/
theorem read_receiveAll_line (answers : List Byte) {d : LcdDevice} {line : Fin 2} {text : List Byte}
    {ws : List ByteWrite} (hr : ReadyForText d) (hfits : fitsLine d text)
    (hsent : ws.map ByteWrite.sent =
      (false, lineAddressByte line.val) :: text.map (fun c => (true, Config.charmap c))) (a : Nat) :
    Memory.read (receiveAll (.oracle answers) ws d).ddram a =
      if lineBase line ≤ a then (text.map Config.charmap).getD (a - lineBase line) (Memory.read d.ddram a)
      else Memory.read d.ddram a := by
  cases ws with
  | nil => cases hsent
  | cons w ws =>
    obtain ⟨hbyte, hsent⟩ := List.cons.inj hsent
    obtain ⟨hrs, hb⟩ := Prod.mk.inj hbyte
    obtain ⟨hcols, hspan⟩ := hfits
    have hmod := lineBase_mod line
    obtain ⟨d', hd', hr', hcols', hddram, hac⟩ := readyForText_lineAddress hr answers line
    have hlcd : receiveAll (.oracle answers) (w :: ws) d = receiveAll (.oracle answers) ws d' := by
      rw [← hd', ← hrs, ← hb]; rfl
    rw [← hcols'] at hcols
    rw [hlcd, ← hddram]
    exact read_receiveAll_text answers _ hr' hsent (fun _ => hac) (by omega) (by omega) a

/-- Settles O18: the lines of the operation run, and what the LCD makes of the bytes. -/
theorem writeLineSendsAddressThenText : Obligations.WriteLineSendsAddressThenText := by
  intro s line text ws rest hi hst hl ht hws hsent hp
  rw [← lineAddressByte_eq] at hsent
  have hentry : entryRefusal (.writeLine line.val text) s = none :=
    entryRefusal_initialized (badOperand_writeLine line text) hi hst
  have hrun := writeLine_run (s := s.withSeq (callLines (.writeLine line.val text) ++ s.seq)) hl rfl hi hst ht hws hsent
    hp
  refine ⟨⟨passesThrough_of_call rfl hentry hrun, rfl⟩, fun hfits hsettled howed hdesc hinc hwf a => ?_⟩
  show Memory.read (receiveAll s.env.lcdParty ws s.env.lcd).ddram a = _
  rw [hp]
  exact read_receiveAll_line _ ⟨hsettled, howed, hdesc, hinc, hwf⟩ hfits hsent a

end Sys2Proof.Machine

/-! The collaborator's calls inside a scan cycle (spec/42_keypad_scanner.md R167): a call is refused or runs its writes,
and a program of writing calls runs them in order. -/

namespace Sys2Proof.Machine

/-! ### One call -/

theorem step_call_of_refusal {s : State} {c : LcdCall} {after : List Micro} {r : Refusal}
    (hl : s.env.lcd.latch = none) (hs : s.seq = .call c :: after) (h : entryRefusal c s = some r) :
    step s = .refused r := by
  have hentry : entryRefusal c { s with seq := after } = some r := h
  have hturn : lineTurn (.call c) { s with seq := after } = .refused r := by simp only [lineTurn, callTurn, hentry]
  rw [step, (nextTurn_line hl hs).trans hturn]

/-- A call accepted at its entry puts the lines of the operation next. -/
theorem step_call_of_entry {s : State} {c : LcdCall} {after : List Micro} (hl : s.env.lcd.latch = none)
    (hs : s.seq = .call c :: after) (h : entryRefusal c s = none) :
    step s = .next (s.withSeq (callLines c ++ after)) := by
  have hentry : entryRefusal c { s with seq := after } = none := h
  refine step_line hl hs ?_
  simp only [lineTurn, callTurn, hentry, List.append_nil]
  rfl

/-- The lines of a writing call, from the idle pin state and an initialised LCD. -/
theorem writeCallLines_run {s : State} {c : LcdCall} {ws : List ByteWrite} {rest : List Byte} {after : List Micro}
    (hl : s.env.lcd.latch = none) (hs : s.seq = callLines c ++ after) (hi : s.pinsIdle = true)
    (hst : s.lcdst ≠ .uninitialized) (hc : isWriteCall c = true) (hws : ∀ w ∈ ws, w.wait.ok = true)
    (hsent : ws.map ByteWrite.sent = sends c) (hp : s.env.lcdParty = .oracle (answersOf ws ++ rest)) :
    Reaches s ((afterWrites ws rest s).goesOn .ready after) := by
  have hseries : callLines c = seriesLines (sends c) → sends c ≠ [] →
      Reaches s ((afterWrites ws rest s).goesOn .ready after) := by
    intro hlines hne
    cases ws with
    | nil => exact absurd hsent.symm hne
    | cons w ws => exact writes_run hl (by rw [hs, hlines, hsent]) hi hst hws hp
  cases c with
  | waitReady | initializeLcd => cases hc
  | writeInstruction b | writeData b | writeChar b => exact hseries (List.append_nil _).symm (List.cons_ne_nil _ _)
  | clear => exact hseries callLines_clear (List.cons_ne_nil _ _)
  | writeLine i text =>
    obtain ⟨hline, ht⟩ : i < 2 ∧ textOk text = true := by simpa [isWriteCall, needsInit, badOperand] using hc
    exact writeLine_run (line := ⟨i, hline⟩) hl hs hi hst ht hws hsent hp

theorem badOperand_of_isWriteCall {c : LcdCall} (hc : isWriteCall c = true) : badOperand c = false := by
  simp only [isWriteCall, Bool.and_eq_true, Bool.not_eq_true'] at hc
  obtain ⟨⟨-, hoperand⟩, -⟩ := hc
  exact hoperand

/-- A writing call with its entry checks. -/
theorem writeCall_run {s : State} {c : LcdCall} {ws : List ByteWrite} {rest : List Byte} {after : List Micro}
    (hl : s.env.lcd.latch = none) (hs : s.seq = .call c :: after) (hi : s.pinsIdle = true)
    (hst : s.lcdst ≠ .uninitialized) (hc : isWriteCall c = true) (hws : ∀ w ∈ ws, w.wait.ok = true)
    (hsent : ws.map ByteWrite.sent = sends c) (hp : s.env.lcdParty = .oracle (answersOf ws ++ rest)) :
    Reaches s ((afterWrites ws rest s).goesOn .ready after) :=
  .head (step_call_of_entry hl hs (entryRefusal_initialized (badOperand_of_isWriteCall hc) hi hst))
    (writeCallLines_run (s := s.withSeq (callLines c ++ after)) hl rfl hi hst hc hws hsent hp)

/-- Settles O47, by the call: refused at its entry, or the run of its lines. -/
theorem collaboratorNeedsAnInitialisedLcd : Obligations.CollaboratorNeedsAnInitialisedLcd := by
  intro s c after hl hs hi
  refine ⟨fun hoperand hneeds hst => ?_, fun ws rest hc hst hsent hws hp => ?_, fun w rest hc hw hp => ?_,
    fun lead ws rest hc hlead hsent hws hp => ?_⟩
  · exact step_call_of_refusal hl hs (entryRefusal_uninitialized hoperand hneeds hi hst)
  · exact writeCall_run hl hs hi hst hc hws hsent hp
  · subst hc
    have hentry : entryRefusal .waitReady s = none := (entryRefusal_none_iff _ s).mpr ⟨rfl, hi, nofun⟩
    exact .head (step_call_of_entry hl hs hentry)
      (wait_run (s := s.withSeq (callLines .waitReady ++ after)) hl rfl hi hw hp)
  · subst hc
    have hentry : entryRefusal .initializeLcd s = none := (entryRefusal_none_iff _ s).mpr ⟨rfl, hi, nofun⟩
    rw [List.append_assoc] at hp
    exact .head (step_call_of_entry hl hs hentry)
      (initializeLcd_run (s := s.withSeq (callLines .initializeLcd ++ after)) hl rfl hi hlead hws hsent hp)

/-! ### A program of writing calls -/

theorem answersOf_append (ws more : List ByteWrite) : answersOf (ws ++ more) = answersOf ws ++ answersOf more :=
  List.flatMap_append

/-- A series of writes, and from there on another one. -/
theorem goesOn_afterWrites_append {s : State} {answers : List Byte} (hp : s.env.lcdParty = .oracle answers)
    (ws more : List ByteWrite) (left rest : List Byte) (st st' : LcdStatus) (seq seq' : List Micro) :
    (afterWrites more rest ((afterWrites ws left s).goesOn st seq)).goesOn st' seq' =
      (afterWrites (ws ++ more) rest s).goesOn st' seq' := by
  simp only [afterWrites, State.goesOn, traceOf, lastPoll, receiveAll, hp, List.flatMap_append, List.foldl_append,
    List.append_assoc]
  rfl

theorem sends_ne_nil {c : LcdCall} (hc : isWriteCall c = true) : sends c ≠ [] := by
  cases c with
  | waitReady => cases hc
  | _ => exact List.cons_ne_nil _ _

/-- A program of writing calls, each checked when it runs: the pins idle and the LCD initialised, if there is a call. -/
theorem writeCalls_run {s : State} {calls : List LcdCall} {ws : List ByteWrite} {rest : List Byte}
    {after : List Micro} (hl : s.env.lcd.latch = none) (hs : s.seq = calls.map .call ++ after)
    (hready : calls ≠ [] → s.pinsIdle = true ∧ s.lcdst ≠ .uninitialized) (hcalls : ∀ c ∈ calls, isWriteCall c = true)
    (hws : ∀ w ∈ ws, w.wait.ok = true) (hsent : ws.map ByteWrite.sent = calls.flatMap sends)
    (hp : s.env.lcdParty = .oracle (answersOf ws ++ rest)) :
    Reaches s ((afterWrites ws rest s).goesOn (if ws = [] then s.lcdst else .ready) after) := by
  induction calls generalizing s ws with
  | nil =>
    obtain rfl : ws = [] := by simpa using hsent
    obtain rfl : s.seq = after := hs
    exact .of_eq (goesOn_afterWrites_nil hp).symm
  | cons c calls ih =>
    obtain ⟨hi, hst⟩ := hready (List.cons_ne_nil _ _)
    obtain ⟨hc, hcalls⟩ := List.forall_mem_cons.mp hcalls
    obtain ⟨first, more, rfl, hfirst, hmore⟩ := List.map_eq_append_iff.mp (hsent.trans List.flatMap_cons)
    obtain ⟨hwsFirst, hwsMore⟩ := List.forall_mem_append.mp hws
    have hne : first ≠ [] := by
      rintro rfl
      exact sends_ne_nil hc hfirst.symm
    rw [answersOf_append, List.append_assoc] at hp
    refine (writeCall_run hl hs hi hst hc hwsFirst hfirst hp).trans
      ((ih (ws := more) ?_ ?_ (fun _ => ⟨?_, ?_⟩) hcalls hwsMore hmore ?_).trans (.of_eq ?_))
    · exact (afterWrites_latch hp first _).trans hl
    · rfl
    · exact hi
    · nofun
    · rfl
    · rw [goesOn_afterWrites_append hp, if_neg (List.append_ne_nil_of_left_ne_nil hne more)]
      exact congrArg (State.goesOn _ · after) (ite_self _)

end Sys2Proof.Machine

/-! The keypad scanner of spec/42_keypad_scanner.md: its steps, its two loops over the samples the environment gives,
and the scan cycle made of them. -/

namespace Sys2Proof.Machine

/-! ### The row and the key code (R161, R168, R169, R171, R172) -/

theorem singleMask_shiftLeft (c : Fin 5) : singleMask (1#5 <<< c.val) = true := by
  revert c; decide

theorem shiftLeft_inj {c d : Fin 5} (h : 1#5 <<< c.val = 1#5 <<< d.val) : c = d := by
  revert c d; decide

/-- The bit position of a single-bit mask, whatever free value is drawn (R168). -/
theorem positionOfSetBit_shiftLeft (n : Nat) (c : Fin 5) : positionOfSetBit n (1#5 <<< c.val) = c :=
  shiftLeft_inj (shiftLeft_positionOfSetBit n (singleMask_shiftLeft c))

theorem keyCode_inj {r c r' c' : Fin 5} (h : keyCode r c = keyCode r' c') : r = r' ∧ c = c' := by
  refine ⟨Fin.ext ?_, Fin.ext ?_⟩
  · rw [← keyCode_div r c, h, keyCode_div]
  · rw [← keyCode_mod r c, h, keyCode_mod]

/-- Settles O31: the position gives the mask back, and the code is taken apart by division by 5. -/
theorem keyCodesAreRowsTimesFivePlusColumn : Obligations.KeyCodesAreRowsTimesFivePlusColumn :=
  ⟨fun n => ⟨if_pos rfl, positionOfSetBit_shiftLeft n⟩, fun _ _ => rfl, fun _ _ _ _ => keyCode_inj⟩

theorem onehot5_getLsbD (row r : Fin 5) : (onehot5 row).getLsbD r.val = true ↔ r = row := by
  revert row r; decide

/-- Settles O32: each of the three lines is one step, and the row word is one-hot. -/
theorem rowStepsDriveOneRow : Obligations.RowStepsDriveOneRow :=
  fun s _ hl => ⟨fun hs => step_line hl hs rfl, onehot5_getLsbD s.row, fun hs => step_line hl hs rfl,
    fun hs => ⟨nextRow s.row, rfl, step_line hl hs rfl⟩⟩

/-! ### Where the loops end, and the acceptance test (R165, R166, R170) -/

theorem confirmLoop_of_zero {s : State} (h : s.mask = 0#5) : confirmLoop s = s := by
  simp [confirmLoop, nonzeroMask, h]

theorem confirmLoop_of_cap {s : State} (h : s.cnt = 100#7) : confirmLoop s = s := by
  simp [confirmLoop, Config.confirmCap, h]

theorem releaseLoop_of_count {s : State} (h : s.cnt = 100#7) : releaseLoop s = s := by
  simp [releaseLoop, Config.releaseCount, h]

theorem acceptKey_of_rejected {s : State} (h : singleMask s.mask = false) : acceptKey s = s := by
  simp [acceptKey, h]

/-- A mask with the one bit `col` set is a key event, and the collaborator's program for its code is next (R167). -/
theorem acceptKey_of_column {s : State} {col : Fin 5} (h : s.mask = 1#5 <<< col.val) :
    acceptKey s =
      (s.emit (.key (keyCode s.row col))).pushSeq
        (dispatchLines (dispatchProgram s.env.dispatch (5 * s.row.val + col.val))) := by
  have hkey : resolvedKey s = keyCode s.row col := by rw [resolvedKey, h, positionOfSetBit_shiftLeft]
  have hsingle : singleMask s.mask = true := h ▸ singleMask_shiftLeft col
  rw [acceptKey, if_pos hsingle, hkey]
  rfl

/-! ### Samples that the environment gives (R162, R164) -/

theorem keyAnswer_given {s : State} {w : Byte} {rest : List Byte} (h : s.env.keyParty = .oracle (w :: rest)) :
    keyAnswer s = (w, { s with env := { s.env with keyParty := .oracle rest } }) := by
  simp [keyAnswer, h]

theorem sampleMask_given {s : State} {w : Byte} {rest : List Byte} (h : s.env.keyParty = .oracle (w :: rest)) :
    sampleMask s =
      { s with
        mask := columnMask w, trace := s.trace ++ [.col (columnMask w)],
        env := { s.env with keyParty := .oracle rest } } := by
  rw [sampleMask, sampleColumns, keyAnswer_given h]
  rfl

/-- The events of a series of re-samples, each after a unit of delay (R165, R170). -/
def resampleTrace (ws : List Byte) : List Event := ws.flatMap (fun w => [.delayScan 1, .col (columnMask w)])

/-- The state after the re-samples `ws` with the answers `rest` left, by what they made of `MASK` and `CNT`. -/
def State.resampled (s : State) (ws rest : List Byte) (mask : KeyWord) (cnt : BitVec 7) : State :=
  { s with
    mask := mask, cnt := cnt, trace := s.trace ++ resampleTrace ws,
    env := { s.env with keyParty := .oracle rest } }

theorem resampled_nil {s : State} {rest : List Byte} (h : s.env.keyParty = .oracle rest) :
    s.resampled [] rest s.mask s.cnt = s := by
  simp only [State.resampled, resampleTrace, List.flatMap_nil, List.append_nil, ← h]

theorem resampled_resampled (s : State) (ws more left rest : List Byte) (m m' : KeyWord) (n n' : BitVec 7) :
    (s.resampled ws left m n).resampled more rest m' n' = s.resampled (ws ++ more) rest m' n' := by
  simp only [State.resampled, resampleTrace, List.flatMap_append, List.append_assoc]

/-- Re-samples of the confirmation loop, all but the last of them non-zero, within the cap: the loop's head again with
the last sample in `MASK` (R165). -/
theorem confirm_run {s : State} {held : List Byte} {last : Byte} {rest : List Byte} {after : List Micro}
    (hl : s.env.lcd.latch = none) (hs : s.seq = .confirmLoop :: after) (hm : s.mask ≠ 0#5)
    (hheld : ∀ w ∈ held, columnMask w ≠ 0#5) (hcap : s.cnt.toNat + held.length < 100)
    (hp : s.env.keyParty = .oracle (held ++ last :: rest)) :
    Reaches s
      (s.resampled (held ++ [last]) rest (columnMask last) (s.cnt + BitVec.ofNat 7 (held.length + 1))) := by
  induction held generalizing s with
  | nil => exact confirm_round hl hs hm hcap hp
  | cons w held ih =>
    obtain ⟨hw, hheld⟩ := List.forall_mem_cons.mp hheld
    rw [List.length_cons] at hcap ⊢
    have hcnt : s.cnt + 1#7 + BitVec.ofNat 7 (held.length + 1) = s.cnt + BitVec.ofNat 7 (held.length + 1 + 1) := by
      bv_omega
    have hround : Reaches s (s.resampled [w] (held ++ last :: rest) (columnMask w) (s.cnt + 1#7)) :=
      confirm_round hl hs hm (by omega) hp
    refine hround.trans ((ih ?_ ?_ hw hheld ?_ rfl).trans (.of_eq ?_))
    · exact hl
    · exact hs
    · show (s.cnt + 1#7).toNat + held.length < 100
      bv_omega
    · rw [resampled_resampled, ← hcnt]
      rfl

/-- A sample that is not zero starts the count again (R170). -/
theorem quietCount_cons (m : KeyWord) (ms : List KeyWord) (n : Nat) :
    quietCount (m :: ms) n = quietCount ms (if m = 0#5 then n + 1 else 0) := by
  rw [quietCount]
  split
  · rfl
  · rfl

theorem quietCount_zeros {ws : List Byte} (h : ∀ w ∈ ws, columnMask w = 0#5) (n : Nat) :
    quietCount (ws.map columnMask) n = n + ws.length := by
  induction ws generalizing n with
  | nil => rfl
  | cons w ws ih =>
    obtain ⟨hw, hws⟩ := List.forall_mem_cons.mp h
    rw [List.map_cons, quietCount_cons, if_pos hw, ih hws, List.length_cons]
    omega

/-- One sample of the release-confirmation loop, the count as a number (R170). -/
theorem releaseSample_run {s : State} {w : Byte} {rest : List Byte} {after : List Micro} (n : Nat)
    (hl : s.env.lcd.latch = none) (hs : s.seq = .releaseLoop :: after) (hn : s.cnt = BitVec.ofNat 7 n) (hlt : n < 100)
    (hp : s.env.keyParty = .oracle (w :: rest)) :
    Reaches s (s.resampled [w] rest s.mask (BitVec.ofNat 7 (if columnMask w = 0#5 then n + 1 else 0))) := by
  have hcnt : BitVec.ofNat 7 (if columnMask w = 0#5 then n + 1 else 0) =
      if columnMask w = 0#5 then s.cnt + 1#7 else 0#7 := by
    rw [hn]
    split
    · exact BitVec.ofNat_add n 1
    · rfl
  rw [hcnt]
  exact release_round hl hs (by rw [hn]; bv_omega) hp

/-- Samples of the release-confirmation loop that leave the count below 100 before each: the loop's head again with the
count that `quietCount` gives (R170). -/
theorem release_run {s : State} {ws rest : List Byte} {after : List Micro} (n : Nat) (hl : s.env.lcd.latch = none)
    (hs : s.seq = .releaseLoop :: after) (hn : s.cnt = BitVec.ofNat 7 n)
    (hgoing : ∀ k < ws.length, quietCount ((ws.take k).map columnMask) n < 100)
    (hp : s.env.keyParty = .oracle (ws ++ rest)) :
    Reaches s (s.resampled ws rest s.mask (BitVec.ofNat 7 (quietCount (ws.map columnMask) n))) := by
  induction ws generalizing s n with
  | nil =>
    have hsame := resampled_nil hp
    rw [hn] at hsame
    exact .of_eq hsame.symm
  | cons w ws ih =>
    have hround := releaseSample_run n hl hs hn (hgoing 0 (Nat.zero_lt_succ _)) hp
    refine hround.trans ((ih _ ?_ ?_ rfl (fun k hk => ?_) rfl).trans (.of_eq ?_))
    · exact hl
    · exact hs
    · rw [← quietCount_cons]
      exact hgoing (k + 1) (Nat.succ_lt_succ hk)
    · rw [resampled_resampled, List.map_cons, quietCount_cons]
      rfl

/-! ### The beginning and the end of a cycle (R161, R164, R171 to R173) -/

/-- The last lines of a cycle, after the acceptance test and what it starts. -/
def closingLines : List Micro := [.deactivateRow, .advanceRow, .scanDone]

/-- At the head of the confirmation loop of a cycle that `after` follows, the row active and its first sample taken. -/
def State.rowOpened (s : State) (first : Byte) (rest : List Byte) (after : List Micro) : State :=
  { s with
    rowout := onehot5 s.row, mask := columnMask first, cnt := 0#7,
    seq := .confirmLoop :: .accept :: (closingLines ++ after),
    trace := s.trace ++ [.row (onehot5 s.row), .col (columnMask first)],
    env := { s.env with keyParty := .oracle rest } }

/-- After a cycle that `after` follows. -/
def State.rowClosed (s : State) (after : List Micro) : State :=
  { s with
    row := nextRow s.row, rowout := 0#5, mask := Config.freeMask s.env.draws, cnt := Config.freeCount s.env.draws,
    seq := after, trace := s.trace ++ [.row 0#5], env := { s.env with draws := s.env.draws + 1 } }

theorem opening_run {s : State} {first : Byte} {rest : List Byte} {after : List Micro} (hl : s.env.lcd.latch = none)
    (hs : s.seq = scanLines ++ after) (hp : s.env.keyParty = .oracle (first :: rest)) :
    Reaches s (s.rowOpened first rest after) := by
  refine .line hl hs rfl (.line (by exact hl) rfl rfl ?_)
  rw [sampleMask_given (by exact hp)]
  refine .line (by exact hl) rfl rfl (.of_eq ?_)
  simp [State.rowOpened, clearCount, activateRow, State.emit, closingLines]

theorem closing_run {s : State} {after : List Micro} (hl : s.env.lcd.latch = none)
    (hs : s.seq = closingLines ++ after) : Reaches s (s.rowClosed after) :=
  .line hl hs rfl (.line (by exact hl) rfl rfl (.line (by exact hl) rfl rfl (.refl _)))

/-- The confirmation loop ends on a zero sample or at its cap (R165). -/
theorem confirmEnd_run {s : State} {after : List Micro} (hl : s.env.lcd.latch = none)
    (hs : s.seq = .confirmLoop :: after) (hend : s.mask = 0#5 ∨ s.cnt = 100#7) : Reaches s (s.withSeq after) := by
  refine .line hl hs rfl (.of_eq ?_)
  obtain hzero | hcap := hend
  · exact confirmLoop_of_zero hzero
  · exact confirmLoop_of_cap hcap

/-- A cycle whose confirmation loop ends on a mask that is not accepted raises no event and does not wait for a
release (R166). -/
theorem rejected_run {s : State} {after : List Micro} (hl : s.env.lcd.latch = none)
    (hs : s.seq = .confirmLoop :: .accept :: (closingLines ++ after)) (hend : s.mask = 0#5 ∨ s.cnt = 100#7)
    (hmask : singleMask s.mask = false) : Reaches s (s.rowClosed after) := by
  have htest : acceptKey (s.withSeq (closingLines ++ after)) = s.withSeq (closingLines ++ after) :=
    acceptKey_of_rejected hmask
  refine (confirmEnd_run hl hs hend).trans (.line hl rfl (congrArg Turn.state htest) ?_)
  exact closing_run (s := s.withSeq (closingLines ++ after)) hl rfl

/-- After a cycle with no key in its row that `after` follows, the answers `rest` left. -/
def State.rowPassed (s : State) (rest : List Byte) (after : List Micro) : State :=
  { s with
    row := nextRow s.row, rowout := 0#5, mask := Config.freeMask s.env.draws, cnt := Config.freeCount s.env.draws,
    seq := after, trace := s.trace ++ [.row (onehot5 s.row), .col 0#5, .row 0#5],
    env := { s.env with keyParty := .oracle rest, draws := s.env.draws + 1 } }

theorem rowClosed_rowOpened {raw : Byte} (hraw : columnMask raw = 0#5) (s : State) (rest : List Byte)
    (after : List Micro) : (s.rowOpened raw rest after).rowClosed after = s.rowPassed rest after := by
  simp only [State.rowClosed, State.rowOpened, State.rowPassed, hraw, List.append_assoc]
  rfl

/-- One cycle with no key in the active row (R173, corner case (a)). -/
theorem emptyRow_run {s : State} {raw : Byte} {rest : List Byte} {after : List Micro} (hl : s.env.lcd.latch = none)
    (hs : s.seq = scanLines ++ after) (hraw : columnMask raw = 0#5) (hp : s.env.keyParty = .oracle (raw :: rest)) :
    Reaches s (s.rowPassed rest after) := by
  have hmask : singleMask (columnMask raw) = false := by rw [hraw]; rfl
  rw [← rowClosed_rowOpened hraw]
  exact (opening_run hl hs hp).trans (rejected_run hl rfl (.inl hraw) hmask)

/-- The state in which a confirmation loop ends that re-sampled, the last sample in `MASK`. -/
def State.rowHeld (s : State) (first : Byte) (held : List Byte) (last : Byte) (rest : List Byte)
    (after : List Micro) : State :=
  (s.rowOpened first (held ++ last :: rest) after).resampled (held ++ [last]) rest (columnMask last)
    (BitVec.ofNat 7 (held.length + 1))

theorem held_run {s : State} {first : Byte} {held : List Byte} {last : Byte} {rest : List Byte} {after : List Micro}
    (hl : s.env.lcd.latch = none) (hs : s.seq = scanLines ++ after) (hfirst : columnMask first ≠ 0#5)
    (hheld : ∀ w ∈ held, columnMask w ≠ 0#5) (hcap : held.length < 100)
    (hp : s.env.keyParty = .oracle (first :: held ++ last :: rest)) :
    Reaches s (s.rowHeld first held last rest after) := by
  have hconfirm := confirm_run (s := s.rowOpened first (held ++ last :: rest) after) (last := last) hl rfl hfirst hheld
    (by simpa [State.rowOpened] using hcap) rfl
  refine (opening_run hl hs hp).trans (hconfirm.trans (.of_eq ?_))
  simp [State.rowHeld, State.rowOpened]

/-! ### The cycles that raise no key event -/

/-- A cycle issued by the host completes where the run of its lines does. -/
theorem scanCycle_completes {s u : State} (h : Reaches (s.withSeq (scanLines ++ s.seq)) u) (hu : u.seq = s.seq) :
    Completes .scanCycle s u :=
  ⟨⟨_, rfl, h⟩, hu⟩

/-- Settles O33: the first sample is zero, so that the confirmation loop is not entered. -/
theorem scanOfAnEmptyRow : Obligations.ScanOfAnEmptyRow := by
  intro s raw rest hl hraw hp
  exact ⟨_, _, scanCycle_completes (emptyRow_run (s := s.withSeq (scanLines ++ s.seq)) hl rfl hraw hp) rfl⟩

/-- A cycle whose confirmation loop re-samples and ends on a mask that is not accepted. -/
theorem rejected_completes {s : State} {first : Byte} {held : List Byte} {last : Byte} {rest : List Byte}
    (hl : s.env.lcd.latch = none) (hfirst : columnMask first ≠ 0#5) (hheld : ∀ w ∈ held, columnMask w ≠ 0#5)
    (hcap : held.length < 100) (hend : columnMask last = 0#5 ∨ held.length = 99)
    (hmask : singleMask (columnMask last) = false)
    (hp : s.env.keyParty = .oracle (first :: held ++ last :: rest)) :
    Completes .scanCycle s ((s.rowHeld first held last rest s.seq).rowClosed s.seq) := by
  have hheldRun := held_run (s := s.withSeq (scanLines ++ s.seq)) hl rfl hfirst hheld hcap hp
  refine scanCycle_completes (hheldRun.trans (rejected_run hl rfl ?_ hmask)) rfl
  obtain hzero | hlength := hend
  · exact .inl hzero
  · exact .inr (congrArg (fun n => BitVec.ofNat 7 (n + 1)) hlength)

/-- Settles O34: the confirmation loop ends on a zero sample. -/
theorem scanOfNoiseRaisesNoKey : Obligations.ScanOfNoiseRaisesNoKey := by
  intro s first held gone rest hl hfirst hheld hcap hgone hp
  have hmask : singleMask (columnMask gone) = false := by rw [hgone]; rfl
  exact ⟨_, _, rejected_completes hl hfirst hheld hcap (.inl hgone) hmask hp⟩

/-- Settles O35: the confirmation loop ends at its cap, on a mask with several bits set. -/
theorem scanOfAHeldChordRaisesNoKey : Obligations.ScanOfAHeldChordRaisesNoKey := by
  intro s first held last rest hl hfirst hheld hlength _ hmask hp
  exact ⟨_, _, rejected_completes hl hfirst hheld (by omega) (.inr hlength) hmask hp⟩

/-! ### Five empty cycles (R174(7)) -/

/-- The events of `n` cycles with no key pressed, from a row on. -/
def emptyCyclesTrace : Fin 5 → Nat → List Event
  | _, 0 => []
  | row, n + 1 => [.row (onehot5 row), .col 0#5, .row 0#5] ++ emptyCyclesTrace (nextRow row) n

/-- The state with other commands for the host to issue. -/
def State.withProgram (s : State) (program : List HostCommand) : State :=
  { s with env := { s.env with program := program } }

/-- One `scanCycle` command of the host with no key in the active row. -/
theorem hostEmptyRow_run {s : State} {raw : Byte} {rest : List Byte} {program : List HostCommand}
    (hl : s.env.lcd.latch = none) (hs : s.seq = []) (hraw : columnMask raw = 0#5)
    (hp : s.env.keyParty = .oracle (raw :: rest)) (hprogram : s.env.program = ⟨0xC00#12, []⟩ :: program) :
    Reaches s ((s.withProgram program).rowPassed rest []) :=
  .head (step_host hl hs hprogram)
    (emptyRow_run (s := (s.withProgram program).pushSeq scanLines) hl (congrArg (scanLines ++ ·) hs) hraw hp)

/-- The host's `scanCycle` commands, one for each answer, with no key pressed. -/
theorem emptyCycles_run {s : State} {raws rest : List Byte} (hl : s.env.lcd.latch = none) (hs : s.seq = [])
    (hraws : ∀ w ∈ raws, columnMask w = 0#5) (hp : s.env.keyParty = .oracle (raws ++ rest))
    (hprogram : s.env.program = List.replicate raws.length ⟨0xC00#12, []⟩) :
    ∃ u, Reaches s u ∧ u.row = nextRow^[raws.length] s.row ∧ u.seq = [] ∧ u.env.program = []
      ∧ u.trace = s.trace ++ emptyCyclesTrace s.row raws.length := by
  induction raws generalizing s with
  | nil => exact ⟨s, .refl s, rfl, hs, hprogram, (List.append_nil _).symm⟩
  | cons raw raws ih =>
    obtain ⟨hraw, hraws⟩ := List.forall_mem_cons.mp hraws
    have hcycle := hostEmptyRow_run hl hs hraw hp hprogram
    obtain ⟨u, hu, hrow, hseq, hempty, htrace⟩ :=
      ih (s := (s.withProgram (List.replicate raws.length ⟨0xC00#12, []⟩)).rowPassed (raws ++ rest) []) hl rfl hraws rfl
        rfl
    exact ⟨u, hcycle.trans hu, hrow, hseq, hempty, htrace.trans (List.append_assoc _ _ _)⟩

/-- Settles O42: five cycles from row 0, their events written out. -/
theorem fiveEmptyCyclesVisitEveryRow : Obligations.FiveEmptyCyclesVisitEveryRow := by
  intro s raws rest hl hrow hs hlength hraws hp hprogram
  rw [← hlength] at hprogram
  obtain ⟨u, hu, hurow, hseq, hempty, htrace⟩ := emptyCycles_run hl hs hraws hp hprogram
  rw [hrow, hlength] at hurow htrace
  exact ⟨u, hu, hurow, hseq, hempty, htrace⟩

/-! ### The release-confirmation loop and the end of its cycle (R170 to R172) -/

/-- Samples with which the release-confirmation loop ends: no 100 consecutive zeros in the first of them, the count
started again by their last, and then 100 zeros. -/
structure EndsRelease (before zeros : List Byte) : Prop where
  going : ∀ n ≤ before.length, quietCount ((before.take n).map columnMask) 0 < 100
  restarted : quietCount (before.map columnMask) 0 = 0
  length : zeros.length = 100
  quiet : ∀ w ∈ zeros, columnMask w = 0#5

/-- 100 zeros from a count of 0 bring the loop to its end. -/
theorem zeros_run {s : State} {zeros rest : List Byte} {after : List Micro} (hl : s.env.lcd.latch = none)
    (hs : s.seq = .releaseLoop :: after) (hcnt : s.cnt = 0#7) (hlength : zeros.length = 100)
    (hquiet : ∀ w ∈ zeros, columnMask w = 0#5) (hp : s.env.keyParty = .oracle (zeros ++ rest)) :
    Reaches s ((s.resampled zeros rest s.mask 100#7).withSeq after) := by
  have hgoing : ∀ k < zeros.length, quietCount ((zeros.take k).map columnMask) 0 < 100 := by
    intro k hk
    rw [quietCount_zeros fun w hw => hquiet w (List.mem_of_mem_take hw), List.length_take]
    omega
  have hrun := release_run 0 hl hs hcnt hgoing hp
  rw [quietCount_zeros hquiet, Nat.zero_add, hlength] at hrun
  exact hrun.trans (.line hl hs rfl (.of_eq (releaseLoop_of_count rfl)))

/-- From the release-confirmation loop to the end of the cycle. -/
theorem releaseClosing_run {s : State} {before zeros rest : List Byte} {after : List Micro}
    (hl : s.env.lcd.latch = none) (hs : s.seq = .clearCount :: .releaseLoop :: (closingLines ++ after))
    (h : EndsRelease before zeros) (hp : s.env.keyParty = .oracle (before ++ zeros ++ rest)) :
    Reaches s ((s.resampled (before ++ zeros) rest s.mask 100#7).rowClosed after) := by
  refine .line hl hs rfl ?_
  rw [List.append_assoc] at hp
  have hbefore := release_run (s := clearCount (s.withSeq (.releaseLoop :: (closingLines ++ after)))) 0 hl rfl rfl
    (fun k hk => h.going k (Nat.le_of_lt hk)) hp
  rw [h.restarted] at hbefore
  refine hbefore.trans ((zeros_run ?_ rfl rfl h.length h.quiet rfl).trans ((closing_run ?_ rfl).trans (.of_eq ?_)))
  · exact hl
  · exact hl
  · rw [resampled_resampled]
    rfl

/-- Settles O37: the samples before, the 100 zeros, and the last lines of the cycle. -/
theorem releaseLoopEndsAfterHundredQuietSamples : Obligations.ReleaseLoopEndsAfterHundredQuietSamples := by
  intro s before zeros rest after hl hs hgoing hrestarted hlength hquiet hp
  exact ⟨_, _, releaseClosing_run hl hs ⟨hgoing, hrestarted, hlength, hquiet⟩ hp⟩

/-! ### A key confirmed (R165 to R173) -/

/-- Where an accepted key leaves a cycle that `after` follows: the event raised, the collaborator's program for its
code next, then the release-confirmation loop. -/
def State.keyRaised (s : State) (first : Byte) (held : List Byte) (last : Byte) (rest : List Byte) (col : Fin 5)
    (after : List Micro) : State :=
  ((s.rowHeld first held last rest after).emit (.key (keyCode s.row col))).withSeq
    ((dispatchProgram s.env.dispatch (5 * s.row.val + col.val)).map .call
      ++ .clearCount :: .releaseLoop :: (closingLines ++ after))

/-- 100 re-samples, none zero and the last with one column set, raise that column's key (R165 to R169). -/
theorem keyRaised_run {s : State} {first : Byte} {held : List Byte} {last : Byte} {rest : List Byte} {col : Fin 5}
    {after : List Micro} (hl : s.env.lcd.latch = none) (hs : s.seq = scanLines ++ after)
    (hfirst : columnMask first ≠ 0#5) (hheld : ∀ w ∈ held, columnMask w ≠ 0#5) (hlength : held.length = 99)
    (hlast : columnMask last = 1#5 <<< col.val) (hp : s.env.keyParty = .oracle (first :: held ++ last :: rest)) :
    Reaches s (s.keyRaised first held last rest col after) := by
  have hcap : (s.rowHeld first held last rest after).cnt = 100#7 :=
    congrArg (fun n => BitVec.ofNat 7 (n + 1)) hlength
  have hend := confirmEnd_run (s := s.rowHeld first held last rest after) hl rfl (.inr hcap)
  refine (held_run hl hs hfirst hheld (by omega) hp).trans (hend.trans (.line hl rfl rfl ?_))
  rw [acceptKey_of_column (by exact hlast)]
  exact .of_eq (by simp [State.keyRaised, State.withSeq, State.emit, State.pushSeq, dispatchLines, State.rowHeld,
    State.resampled, State.rowOpened])

/-- From the dispatch of a key to the end of its cycle: the collaborator's writes, the release, the next row. -/
theorem dispatched_run {s : State} {calls : List LcdCall} {ws : List ByteWrite}
    {lcdRest before zeros keyRest : List Byte} {after : List Micro} (hl : s.env.lcd.latch = none)
    (hs : s.seq = calls.map .call ++ .clearCount :: .releaseLoop :: (closingLines ++ after))
    (hready : calls ≠ [] → s.pinsIdle = true ∧ s.lcdst ≠ .uninitialized) (hcalls : ∀ c ∈ calls, isWriteCall c = true)
    (hws : ∀ w ∈ ws, w.wait.ok = true) (hsent : ws.map ByteWrite.sent = calls.flatMap sends)
    (hlcd : s.env.lcdParty = .oracle (answersOf ws ++ lcdRest)) (h : EndsRelease before zeros)
    (hkey : s.env.keyParty = .oracle (before ++ zeros ++ keyRest)) :
    Reaches s
      ((((afterWrites ws lcdRest s).goesOn (if ws = [] then s.lcdst else .ready) []).resampled (before ++ zeros)
        keyRest s.mask 100#7).rowClosed after) :=
  (writeCalls_run hl hs hready hcalls hws hsent hlcd).trans
    (releaseClosing_run ((afterWrites_latch hlcd ws lcdRest).trans hl) rfl h hkey)

/-- Settles O36: the key is raised, and from there on the cycle goes to its end. -/
theorem scanOfAHeldKeyDispatchesItsCode : Obligations.ScanOfAHeldKeyDispatchesItsCode := by
  intro s first held last rest col hl hfirst hheld hlength hlast hp
  have hraised : Reaches (s.withSeq (scanLines ++ s.seq)) (s.keyRaised first held last rest col s.seq) :=
    keyRaised_run (s := s.withSeq (scanLines ++ s.seq)) hl rfl hfirst hheld hlength hlast hp
  refine ⟨⟨_, rfl, hraised.trans (.of_eq ?_)⟩, ?_⟩
  · simp [State.keyRaised, State.rowHeld, State.rowOpened, State.resampled, State.withSeq, State.emit, closingLines,
      resampleTrace, hlast, hlength]
  · intro ws lcdRest before zeros keyRest hcalls hready hsent hws hlcd hrest hgoing hrestarted hzeros hquiet
    subst hrest
    have hcycle := dispatched_run (s := s.keyRaised first held last (before ++ zeros ++ keyRest) col s.seq) hl rfl
      hready hcalls hws hsent hlcd ⟨hgoing, hrestarted, hzeros, hquiet⟩ rfl
    refine ⟨Config.freeMask s.env.draws, Config.freeCount s.env.draws,
      scanCycle_completes ((hraised.trans hcycle).trans (.of_eq ?_)) rfl⟩
    simp only [State.rowClosed, State.resampled, State.goesOn, afterWrites, State.keyRaised, State.withSeq, State.emit,
      State.rowHeld, State.rowOpened, resampleTrace]

end Sys2Proof.Machine

/-! The collaborator and the glue of spec/43_dispatch_and_glue.md: the key events of the default table, `startup`, and
the scan loop it ends in. -/

namespace Sys2Proof.Machine

/-! ### Key events with the default table (R201) -/

/-- A key event with a code in its domain is the collaborator's program for it. -/
theorem exec_keyEvent {k : BitVec 5} (hk : k.toNat ≤ 24) (s : State) :
    exec (.keyEvent k) s = issueProgram (dispatchProgram s.env.dispatch k.toNat) s :=
  if_neg (Nat.not_lt.mpr hk)

/-- With the default table, by the program it gives the code. -/
theorem exec_keyEvent_default {s : State} {k : BitVec 5} {calls : List LcdCall} (hd : s.env.dispatch = defaultDispatch)
    (h : k.toNat ≤ 24 ∧ dispatchProgram defaultDispatch k.toNat = calls) :
    exec (.keyEvent k) s = issueProgram calls s := by
  obtain ⟨hk, rfl⟩ := h
  rw [exec_keyEvent hk, hd]

/-- The codes to which the default table gives no operation. -/
def unlistedCodes : List (BitVec 5) :=
  [0#5, 1#5, 3#5, 4#5, 5#5, 9#5, 10#5, 14#5, 15#5, 19#5, 20#5, 21#5, 22#5, 23#5]

theorem dispatchProgram_unlistedCodes :
    ∀ k ∈ unlistedCodes, k.toNat ≤ 24 ∧ dispatchProgram defaultDispatch k.toNat = [] := by decide

/-- Settles O44: the program of such a code is empty. -/
theorem unlistedKeyEventsDoNothing : Obligations.UnlistedKeyEventsDoNothing :=
  fun _ hd k hk => exec_keyEvent_default hd (dispatchProgram_unlistedCodes k hk)

/-- The digit codes, each with the text character of its digit. -/
def digitCodes : List (BitVec 5 × Byte) :=
  [(2#5, 0x30#8), (6#5, 0x31#8), (7#5, 0x32#8), (8#5, 0x33#8), (11#5, 0x34#8), (12#5, 0x35#8), (13#5, 0x36#8),
    (16#5, 0x37#8), (17#5, 0x38#8), (18#5, 0x39#8)]

theorem dispatchProgram_digitCodes :
    ∀ p ∈ digitCodes, p.1.toNat ≤ 24 ∧ dispatchProgram defaultDispatch p.1.toNat = [.writeChar p.2] := by
  simp [digitCodes, defaultDispatch, dispatchProgram]

/-- An instruction completes as one that is executed alike. -/
theorem completes_of_exec_eq {i j : Instr} {s u : State} (he : exec i s = exec j s) (h : Completes j s u) :
    Completes i s u := by
  obtain ⟨⟨t, ht, hrun⟩, hseq⟩ := h
  exact ⟨⟨t, he.trans ht, hrun⟩, hseq⟩

/-- Settles O45: the event is executed as the `writeChar` of its digit. -/
theorem digitKeyEventsWriteTheirDigit : Obligations.DigitKeyEventsWriteTheirDigit := by
  intro s w rest hd hi hst hl hw hp p hmem
  have hexec : exec (.keyEvent p.1) s = exec (.writeChar p.2) s :=
    exec_keyEvent_default hd (dispatchProgram_digitCodes p hmem)
  obtain ⟨-, -, hwritten⟩ := writeDataAndWriteCharWriteAndWait s p.2 w rest hi hst hl hw hp
  exact completes_of_exec_eq hexec hwritten

/-- Settles O46: the event is executed as `clear`. -/
theorem keyEvent24Clears : Obligations.KeyEvent24Clears := by
  intro s ws rest hd hi hst hl hws hsent hp
  have hexec : exec (.keyEvent 24#5) s = exec .clear s :=
    exec_keyEvent_default (k := 24#5) (calls := [.clear]) hd ⟨Nat.le_refl 24, rfl⟩
  exact completes_of_exec_eq hexec (clearSendsClearThenHome s ws rest hi hst hl hws hsent hp)

/-! ### The scan loop (R203) -/

/-- The loop's line puts one more cycle next, and the loop after it. -/
theorem step_mainLoop {s : State} {after : List Micro} (hl : s.env.lcd.latch = none)
    (hs : s.seq = .mainLoop :: after) : step s = .next (s.withSeq (scanLines ++ .mainLoop :: after)) :=
  step_line hl hs rfl

@[simp] theorem readData_seq (s : State) : (readData s).seq = s.seq := by
  obtain ⟨e, he⟩ := readData_eq s; simp [he]

/-- An instruction puts lines in front of those still to run, and takes none of them away. -/
theorem InstrEffect.seq_suffix {s t : State} (h : InstrEffect s t) : s.seq <:+ t.seq := by
  cases h with
  | pushSeq prog => exact List.suffix_append prog s.seq
  | _ => simp

/-- Nor does a line of those after it. -/
theorem LineEffect.seq_suffix {s t : State} {m : Micro} (h : LineEffect s m t) : s.seq <:+ t.seq := by
  cases h with
  | instr h => exact h.seq_suffix
  | key prog _ => exact List.suffix_append prog s.seq
  | _ => simp

theorem lcdTake_seq (rs : Bool) (b : Byte) (f g : LcdDevice → LcdDevice) (s : State) :
    (lcdTake rs b f g s).seq = s.seq := by
  unfold lcdTake
  dsimp only
  split
  · rfl
  · rfl

/-- A step takes at most the line it runs out of the lines still to run: the device and the host take none. -/
theorem step_seq_suffix {s t : State} (h : step s = .next t) :
    s.seq <:+ t.seq ∨ s.env.lcd.latch = none ∧ ∃ m rest, s.seq = m :: rest ∧ rest <:+ t.seq := by
  obtain ⟨w, -, hdevice⟩ | ⟨hl, m, rest, hs, hline⟩ | ⟨-, hs, -⟩ := step_cases h
  · refine .inl ?_
    obtain ⟨i, -, hi⟩ | ⟨b, -, rfl⟩ | rfl := hdevice
    · exact (exec_effect hi).seq_suffix
    · rw [lcdTake_seq]
      exact List.suffix_rfl
    · exact List.suffix_rfl
  · refine .inr ⟨hl, m, rest, hs, ?_⟩
    obtain hstate | ⟨i, u, hu, hi⟩ := hline
    · exact (lineTurn_effect hstate).seq_suffix
    · obtain ⟨e, rfl⟩ := lineTurn_instr hu
      exact (exec_effect hi).seq_suffix
  · exact .inl (hs ▸ List.nil_suffix)

/-- The scan loop stays among the lines still to run: its own line puts it back, and no other takes it out. -/
theorem mainLoop_mem_of_step {s t : State} (hs : .mainLoop ∈ s.seq) (h : step s = .next t) : .mainLoop ∈ t.seq := by
  obtain hkept | ⟨hl, m, rest, hseq, hkept⟩ := step_seq_suffix h
  · exact hkept.subset hs
  · obtain rfl | hrest := List.mem_cons.mp (hseq ▸ hs)
    · cases (step_mainLoop hl hseq).symm.trans h
      exact List.mem_append_right scanLines List.mem_cons_self
    · exact hkept.subset hrest

/-- Settles O49: the loop's line and an empty cycle; and the loop stays. -/
theorem scanLoopRunsOneMoreCycle : Obligations.ScanLoopRunsOneMoreCycle := by
  refine ⟨fun s raw rest after hl hs hraw hp => ?_, fun _ _ => mainLoop_mem_of_step⟩
  have hcycle : Reaches s (s.rowPassed rest (.mainLoop :: after)) :=
    .head (step_mainLoop hl hs) (emptyRow_run (s := s.withSeq (scanLines ++ .mainLoop :: after)) hl rfl hraw hp)
  rw [← hs] at hcycle
  exact ⟨_, _, hcycle⟩

/-! ### Startup (R202) -/

/-- The calls that print the banner. -/
def bannerCalls (pairs : List (Fin 2 × List Byte)) : List LcdCall := pairs.map (fun p => .writeLine p.1.val p.2)

theorem bannerLines_eq (s : State) :
    bannerLines s = (bannerCalls (s.env.banner.getD Config.banner)).map .call :=
  List.map_map.symm

theorem isWriteCall_writeLine (line : Fin 2) {text : List Byte} (ht : textOk text = true) :
    isWriteCall (.writeLine line.val text) = true := by
  simp [isWriteCall, needsInit, badOperand_writeLine, ht]

theorem isWriteCall_bannerCalls {pairs : List (Fin 2 × List Byte)} (h : ∀ p ∈ pairs, textOk p.2 = true) :
    ∀ c ∈ bannerCalls pairs, isWriteCall c = true :=
  List.forall_mem_map.mpr fun p hp => isWriteCall_writeLine p.1 (h p hp)

/-- The bytes of one line of the banner, its line as one of the two. -/
theorem sends_writeLine (line : Fin 2) (text : List Byte) :
    sends (.writeLine line.val text) =
      (false, Config.opSetDdram ||| (if line = 0 then 0x00#8 else 0x40#8))
        :: text.map (fun c => (true, Config.charmap c)) := by
  simp only [sends, Fin.val_eq_zero_iff]

theorem sends_bannerCalls (pairs : List (Fin 2 × List Byte)) :
    (bannerCalls pairs).flatMap sends =
      pairs.flatMap (fun p => (false, Config.opSetDdram ||| (if p.1 = 0 then 0x00#8 else 0x40#8))
        :: p.2.map (fun c => (true, Config.charmap c))) := by
  simp only [bannerCalls, List.flatMap_map, sends_writeLine]

/-- The banner's line with the LCD ready: the writes of its lines, none where the banner is empty. -/
theorem banner_run {s : State} {ws : List ByteWrite} {rest : List Byte} {after : List Micro}
    (hl : s.env.lcd.latch = none) (hs : s.seq = .banner :: after) (hi : s.pinsIdle = true) (hst : s.lcdst = .ready)
    (htext : ∀ p ∈ s.env.banner.getD Config.banner, textOk p.2 = true) (hws : ∀ w ∈ ws, w.wait.ok = true)
    (hsent : ws.map ByteWrite.sent = (bannerCalls (s.env.banner.getD Config.banner)).flatMap sends)
    (hp : s.env.lcdParty = .oracle (answersOf ws ++ rest)) :
    Reaches s ((afterWrites ws rest s).goesOn .ready after) := by
  have hcalls := writeCalls_run (s := s.withSeq (bannerLines s ++ after)) hl (congrArg (· ++ after) (bannerLines_eq s))
    (fun _ => ⟨hi, hst ▸ nofun⟩) (isWriteCall_bannerCalls htext) hws hsent hp
  have hready : (if ws = [] then (s.withSeq (bannerLines s ++ after)).lcdst else .ready) = .ready :=
    ite_eq_right_iff.mpr fun _ => hst
  rw [hready] at hcalls
  exact .line hl hs rfl hcalls

/-- The end of `initialize`, the answers `left` left, with the lines `after` still to run (R136). -/
def State.initialised (s : State) (lead : Wait) (inits : List ByteWrite) (left : List Byte) (after : List Micro) :
    State :=
  (afterWrites inits left (afterWait lead (answersOf inits ++ left) s)).goesOn .ready after

/-- The first line of a scan cycle that the scan loop follows, the banner written, the pause over and the display
cleared (R202, R203). -/
def State.scanning (s : State) (banner clears : List ByteWrite) (rest : List Byte) (after : List Micro) : State :=
  (afterWrites clears rest (delayScan Config.tBanner (afterWrites banner (answersOf clears ++ rest) s))).goesOn .ready
    (scanLines ++ .mainLoop :: after)

theorem initialised_latch (s : State) (lead : Wait) (inits : List ByteWrite) (left : List Byte) (after : List Micro) :
    (s.initialised lead inits left after).env.lcd.latch = s.env.lcd.latch :=
  (afterWrites_latch rfl inits left).trans (rested_latch s.env.lcdParty s.env.lcd)

/-- What `initialize` leaves `startup` to do, with the LCD ready: the banner, the pause, `clear`, and the scan loop. -/
theorem startupTail_run {s : State} {banner clears : List ByteWrite} {rest : List Byte} {after : List Micro}
    (hl : s.env.lcd.latch = none) (hs : s.seq = startupTail ++ after) (hi : s.pinsIdle = true)
    (hst : s.lcdst = .ready) (htext : ∀ p ∈ s.env.banner.getD Config.banner, textOk p.2 = true)
    (hbanner : ∀ w ∈ banner, w.wait.ok = true) (hclears : ∀ w ∈ clears, w.wait.ok = true)
    (hsentBanner : banner.map ByteWrite.sent = (bannerCalls (s.env.banner.getD Config.banner)).flatMap sends)
    (hsentClears : clears.map ByteWrite.sent = sends .clear)
    (hp : s.env.lcdParty = .oracle (answersOf banner ++ (answersOf clears ++ rest))) :
    Reaches s (s.scanning banner clears rest after) := by
  have hlatch := (afterWrites_latch hp banner (answersOf clears ++ rest)).trans hl
  have hprinted := banner_run (after := .delayScan Config.tBanner :: .call .clear :: .mainLoop :: after) hl hs hi hst
    htext hbanner hsentBanner hp
  have hcleared := writeCall_run (c := .clear) (after := .mainLoop :: after) (rest := rest)
    (s := (delayScan Config.tBanner (afterWrites banner (answersOf clears ++ rest) s)).goesOn .ready
      (.call .clear :: .mainLoop :: after)) hlatch rfl hi nofun rfl hclears hsentClears rfl
  refine hprinted.trans (.line hlatch rfl rfl (hcleared.trans ?_))
  exact .single (step_mainLoop ((afterWrites_latch rfl clears rest).trans hlatch) rfl)

theorem traceOf_append (ws more : List ByteWrite) : traceOf (ws ++ more) = traceOf ws ++ traceOf more :=
  List.flatMap_append

theorem lastPoll_append (b : Byte) (ws more : List ByteWrite) :
    lastPoll b (ws ++ more) = lastPoll (lastPoll b ws) more :=
  List.foldl_append

/-- One series of bytes and then another: of an LCD other than RefLCD the answers given do not matter. -/
theorem receiveAll_append (answers left : List Byte) (ws more : List ByteWrite) (d : LcdDevice) :
    receiveAll (.oracle answers) (ws ++ more) d =
      receiveAll (.oracle left) more (receiveAll (.oracle answers) ws d) :=
  List.foldl_append

/-- The state at the scan loop's first cycle, part by part. -/
theorem scanning_initialised {s : State} {answers : List Byte} (hp : s.env.lcdParty = .oracle answers) (lead : Wait)
    (inits banner clears : List ByteWrite) (left rest : List Byte) (tail after : List Micro) :
    (s.initialised lead inits left tail).scanning banner clears rest after =
      { s with
        lcdst := .ready, poll := lastPoll lead.ready (inits ++ banner ++ clears),
        seq := scanLines ++ .mainLoop :: after,
        trace := s.trace ++ waitTrace lead.answers ++ traceOf (inits ++ banner) ++ [.delayScan 2000] ++ traceOf clears,
        env :=
          { s.env with
            lcdParty := .oracle rest,
            lcd := receiveAll s.env.lcdParty (inits ++ banner ++ clears) (rested s.env.lcdParty s.env.lcd) } } := by
  rw [hp, lastPoll_append, lastPoll_append, traceOf_append, receiveAll_append _ (answersOf clears ++ rest),
    receiveAll_append _ left]
  simp only [State.scanning, State.initialised, State.goesOn, afterWrites, afterWait, delayScan, State.emit,
    Config.tBanner, hp, List.append_assoc]
  rfl

/-- `startup` is accepted with idle pins, whatever the record of the LCD is, and goes on with the lines of `initialize`
and its own after them. -/
theorem startup_passesThrough {s u : State} (hi : s.pinsIdle = true)
    (hrun : Reaches (s.withSeq (callLines .initializeLcd ++ (startupTail ++ s.seq))) u) :
    PassesThrough .startup s u := by
  have hentry : entryRefusal .initializeLcd s = none := (entryRefusal_none_iff _ s).mpr ⟨rfl, hi, nofun⟩
  rw [← List.append_assoc] at hrun
  exact ⟨_, issueCall_of_entry startupTail hentry, hrun⟩

/-- Settles O48: `initialize`, and then what it leaves `startup` to do. -/
theorem startupReachesTheScanLoop : Obligations.StartupReachesTheScanLoop := by
  intro s lead inits banner clears rest hi hl hlead hws hsentInits htext hsentBanner hsentClears hp
  obtain ⟨hws, hclears⟩ := List.forall_mem_append.mp hws
  obtain ⟨hinits, hbanner⟩ := List.forall_mem_append.mp hws
  rw [← sends_bannerCalls] at hsentBanner
  simp only [answersOf_append, List.append_assoc] at hp
  have hinitialised := initializeLcd_run (after := startupTail ++ s.seq)
    (s := s.withSeq (callLines .initializeLcd ++ (startupTail ++ s.seq))) hl rfl hi hlead hinits hsentInits hp
  have htail := startupTail_run (after := s.seq)
    (s := s.initialised lead inits (answersOf banner ++ (answersOf clears ++ rest)) (startupTail ++ s.seq))
    ((initialised_latch _ _ _ _ _).trans hl) rfl hi rfl htext hbanner hclears hsentBanner hsentClears rfl
  rw [scanning_initialised hp] at htail
  exact startup_passesThrough hi (hinitialised.trans htail)

end Sys2Proof.Machine

/-! The two hangs of spec/60_exceptions.md R222 and R223: a loop whose end the environment withholds stands at its head
again after any number of rounds. -/

namespace Sys2Proof.Machine

/-! ### HangBusy (R222) -/

/-- A busy answer to an LCD already polled and found busy changes nothing more of it. -/
theorem polledBusy_polledBusy (answers left : List Byte) (d : LcdDevice) :
    polledBusy (.oracle left) (polledBusy (.oracle answers) d) = polledBusy (.oracle answers) d := by
  have hsettled : (polledBusy (.oracle answers) d).settled = true := rfl
  rw [polledBusy, settledLcd_of_settled _ hsettled]
  rfl

/-- The state after the busy answers `bs` to the polls of a wait, the answers `rest` left. -/
def State.polledOn (s : State) (bs rest : List Byte) : State :=
  { s with
    trace := s.trace ++ bs.flatMap pollTrace, poll := bs.getLastD s.poll,
    env :=
      { s.env with
        lcdParty := .oracle rest, lcd := if bs = [] then s.env.lcd else polledBusy s.env.lcdParty s.env.lcd } }

theorem polledOn_nil {s : State} {rest : List Byte} (hp : s.env.lcdParty = .oracle rest) : s.polledOn [] rest = s := by
  simp only [State.polledOn, List.flatMap_nil, List.append_nil, List.getLastD_nil, if_true, ← hp]

/-- One busy answer and then the others. -/
theorem polledOn_polledOn {s : State} {answers : List Byte} (hp : s.env.lcdParty = .oracle answers) (b : Byte)
    (bs left rest : List Byte) : (s.polledOn [b] left).polledOn bs rest = s.polledOn (b :: bs) rest := by
  have hlcd : (if bs = [] then polledBusy s.env.lcdParty s.env.lcd
      else polledBusy (.oracle left) (polledBusy s.env.lcdParty s.env.lcd)) =
        polledBusy s.env.lcdParty s.env.lcd := by
    rw [hp, polledBusy_polledBusy, ite_self]
  simp only [State.polledOn, List.cons_ne_nil, if_false, hlcd, List.getLastD_cons, List.getLastD_nil,
    List.flatMap_cons, List.flatMap_nil, List.append_nil, List.append_assoc]

/-- One busy answer puts the poll loop's lines back: its head again (R133). -/
theorem busyPoll_run {s : State} {b : Byte} {rest : List Byte} {after : List Micro} (hl : s.env.lcd.latch = none)
    (hs : s.seq = pollBody ++ after) (hb : busyFlag b = true) (hrs : s.rs = false) (hrw : s.rw = true)
    (he : s.e = false) (hd : s.ddir = .input) (hp : s.env.lcdParty = .oracle (b :: rest)) :
    Reaches s (s.polledOn [b] rest) := by
  have hround := poll_round hl hs hrs hrw he hd hp
  rw [hb, hp] at hround
  refine hround.trans (.of_eq ?_)
  simp [State.polledOn, polledBusy, hp]

/-- Settles O23, by induction on the busy answers, a round of the poll loop for each. -/
theorem busyAnswersKeepTheWaitPolling : Obligations.BusyAnswersKeepTheWaitPolling := by
  intro s after bs rest hl hs hbusy hrs hrw he hd hp
  show Reaches s (s.polledOn bs rest)
  induction bs generalizing s with
  | nil => exact .of_eq (polledOn_nil hp).symm
  | cons b bs ih =>
    obtain ⟨hb, hbs⟩ : busyFlag b = true ∧ bs.all busyFlag = true := by simpa using hbusy
    have hround : Reaches s (s.polledOn [b] (bs ++ rest)) := busyPoll_run hl hs hb hrs hrw he hd hp
    have hlatch : (s.polledOn [b] (bs ++ rest)).env.lcd.latch = none := (polledBusy_latch _ _).trans hl
    have hothers : Reaches (s.polledOn [b] (bs ++ rest)) ((s.polledOn [b] (bs ++ rest)).polledOn bs rest) :=
      ih _ hlatch hs hbs hrs hrw he hd rfl
    rw [polledOn_polledOn hp] at hothers
    exact hround.trans hothers

/-! ### HangRelease (R223) -/

/-- Settles O38: the run of the release-confirmation loop over its samples, from a count of 0; the count after the
last of them does not matter to it. -/
theorem heldKeyKeepsTheReleaseLoopGoing : Obligations.HeldKeyKeepsTheReleaseLoopGoing := by
  intro s samples rest after hl hs hcnt hgoing hp
  exact release_run 0 hl hs hcnt (fun k hk => hgoing k (Nat.le_of_lt hk)) hp

end Sys2Proof.Machine

/-! The delays of spec/70_reset_and_hazards.md R271: the units of `T_BUS` and `T_SCAN` that each completed operation
adds to the trace. -/

namespace Sys2Proof.Machine

/-! ### The delays in a trace -/

/-- The units of `T_BUS` and the units of `T_SCAN` in a trace. -/
def delayUnits (t : List Event) : Nat × Nat := (busUnits t, scanUnits t)

theorem delays_of_trace {s u : State} {added : List Event} {bus scan : Nat} (ht : u.trace = s.trace ++ added)
    (hd : delayUnits added = (bus, scan)) : Delays s u bus scan :=
  ⟨added, ht, congrArg Prod.fst hd, congrArg Prod.snd hd⟩

theorem busUnits_append (t t' : List Event) : busUnits (t ++ t') = busUnits t + busUnits t' := by
  induction t with
  | nil => exact (Nat.zero_add _).symm
  | cons ev t ih =>
    cases ev with
    | delayBus n => exact (congrArg (n + ·) ih).trans (Nat.add_assoc _ _ _).symm
    | _ => exact ih

theorem scanUnits_append (t t' : List Event) : scanUnits (t ++ t') = scanUnits t + scanUnits t' := by
  induction t with
  | nil => exact (Nat.zero_add _).symm
  | cons ev t ih =>
    cases ev with
    | delayScan n => exact (congrArg (n + ·) ih).trans (Nat.add_assoc _ _ _).symm
    | _ => exact ih

@[simp] theorem delayUnits_append (t t' : List Event) : delayUnits (t ++ t') = delayUnits t + delayUnits t' :=
  Prod.ext (busUnits_append t t') (scanUnits_append t t')

@[simp] theorem delayUnits_nil : delayUnits [] = 0 := rfl

@[simp] theorem delayUnits_row (v : KeyWord) (t : List Event) : delayUnits (.row v :: t) = delayUnits t := rfl

@[simp] theorem delayUnits_col (m : KeyWord) (t : List Event) : delayUnits (.col m :: t) = delayUnits t := rfl

@[simp] theorem delayUnits_key (k : Fin 25) (t : List Event) : delayUnits (.key k :: t) = delayUnits t := rfl

/-- A trace made piece by piece holds the delays of its pieces. -/
theorem delayUnits_flatMap {α : Type} {f : α → List Event} {bus scan : α → Nat}
    (hf : ∀ x, delayUnits (f x) = (bus x, scan x)) (xs : List α) :
    delayUnits (xs.flatMap f) = ((xs.map bus).sum, (xs.map scan).sum) := by
  induction xs with
  | nil => rfl
  | cons x xs ih =>
    rw [List.flatMap_cons, delayUnits_append, hf, ih]
    rfl

/-! ### The delays in the traces of spec/95_test_vectors.md section 0, and in a series of re-samples -/

/-- `WR(b_1, ..., b_k)`: one unit to enter read mode and two a poll (R132, R133). -/
@[simp] theorem delayUnits_waitTrace (bs : List Byte) : delayUnits (waitTrace bs) = (1 + 2 * bs.length, 0) := by
  have hpolls : delayUnits (bs.flatMap pollTrace) = (2 * bs.length, 0) := by
    rw [delayUnits_flatMap (bus := fun _ => 2) (scan := fun _ => 0) fun _ => rfl]
    simp [Nat.mul_comm]
  rw [waitTrace, delayUnits_append, delayUnits_append, hpolls]
  rfl

/-- A byte written and waited for: three units for the write cycle, and its wait (R131, R134, R135). -/
theorem delayUnits_byteWrite (w : ByteWrite) :
    delayUnits w.trace = (4 + 2 * (w.wait.busy.length + 1), 0) := by
  have hcycle : delayUnits (writeTrace w.rs w.byte) = (3, 0) := rfl
  simp [ByteWrite.trace, Wait.answers, hcycle]
  omega

theorem delayUnits_traceOf (ws : List ByteWrite) :
    delayUnits (traceOf ws) = ((ws.map (fun w => 4 + 2 * (w.wait.busy.length + 1))).sum, 0) := by
  rw [traceOf, delayUnits_flatMap (scan := fun _ => 0) delayUnits_byteWrite]
  simp

theorem scanUnits_traceOf (ws : List ByteWrite) : scanUnits (traceOf ws) = 0 :=
  congrArg Prod.snd (delayUnits_traceOf ws)

/-- A unit of the scanner for each re-sample (R165, R170). -/
@[simp] theorem delayUnits_resampleTrace (samples : List Byte) :
    delayUnits (resampleTrace samples) = (0, samples.length) := by
  rw [resampleTrace, delayUnits_flatMap (bus := fun _ => 0) (scan := fun _ => 1) fun _ => rfl]
  simp

/-! ### The operations that touch the LCD -/

/-- The delays of a series of writes are those of its bytes. -/
theorem delays_afterWrites {s : State} (ws : List ByteWrite) (rest : List Byte) (st : LcdStatus) :
    Delays s { afterWrites ws rest s with lcdst := st }
      (ws.map (fun w => 4 + 2 * (w.wait.busy.length + 1))).sum 0 :=
  delays_of_trace rfl (delayUnits_traceOf ws)

/-- `waitReady` (R133). -/
theorem waitReady_delays {s : State} {w : Wait} {rest : List Byte} (hl : s.env.lcd.latch = none)
    (hi : s.pinsIdle = true) (hw : w.ok = true) (hp : s.env.lcdParty = .oracle (w.answers ++ rest)) :
    ∃ u, Completes .waitReady s u ∧ Delays s u (1 + 2 * (w.busy.length + 1)) 0 := by
  refine ⟨_, waitReadyPollsUntilReady s w rest hi hl hw hp, delays_of_trace rfl ?_⟩
  rw [delayUnits_waitTrace, Wait.answers, List.length_append, List.length_singleton]

/-- The operations that write one byte (R134, R135, R138). -/
theorem oneByte_delays {s : State} {w : Wait} {rest : List Byte} (hl : s.env.lcd.latch = none)
    (hi : s.pinsIdle = true) (hst : s.lcdst ≠ .uninitialized) (hw : w.ok = true)
    (hp : s.env.lcdParty = .oracle (w.answers ++ rest)) (b : Byte) :
    ∀ i ∈ [Instr.writeInstruction b, .writeData b, .writeChar b],
      ∃ u, Completes i s u ∧ Delays s u (4 + 2 * (w.busy.length + 1)) 0 := by
  obtain ⟨-, hinstruction⟩ := writeInstructionWritesAndWaits s b w rest hi hst hl hw hp
  obtain ⟨⟨-, hdata⟩, -, hchar⟩ := writeDataAndWriteCharWriteAndWait s b w rest hi hst hl hw hp
  simp only [List.forall_mem_cons]
  exact ⟨⟨_, hinstruction, delays_afterWrites _ rest .ready⟩, ⟨_, hdata, delays_afterWrites _ rest .ready⟩,
    ⟨_, hchar, delays_afterWrites _ rest .ready⟩, nofun⟩

/-- The operations that write a series of bytes (R137, R139). -/
theorem series_delays {s : State} {ws : List ByteWrite} {rest : List Byte} {line : Fin 2} {text : List Byte}
    (hl : s.env.lcd.latch = none) (hi : s.pinsIdle = true) (hst : s.lcdst ≠ .uninitialized)
    (ht : textOk text = true) (hws : ∀ w ∈ ws, w.wait.ok = true)
    (hp : s.env.lcdParty = .oracle (answersOf ws ++ rest)) :
    ∀ p ∈ [(LcdCall.clear, Instr.clear), (.writeLine line.val text, .writeLine line.val text)],
      ws.map ByteWrite.sent = sends p.1 →
        ∃ u, Completes p.2 s u
          ∧ Delays s u ((ws.map (fun w => 4 + 2 * (w.wait.busy.length + 1))).sum) 0 := by
  simp only [List.forall_mem_cons]
  refine ⟨fun hsent => ?clear, fun hsent => ?line, nofun⟩
  case clear =>
    exact ⟨_, clearSendsClearThenHome s ws rest hi hst hl hws hsent hp, delays_afterWrites ws rest .ready⟩
  case line =>
    obtain ⟨hline, -⟩ := writeLineSendsAddressThenText s line text ws rest hi hst hl ht hws
      (hsent.trans (sends_writeLine line text)) hp
    exact ⟨_, hline, delays_afterWrites ws rest .ready⟩

/-- Answers that all show the LCD ready are those of writes with one poll each. -/
theorem exists_writes_of_ready_answers {sent : List (Bool × Byte)} {answers : List Byte}
    (hlength : answers.length = sent.length) (hready : ∀ b ∈ answers, busyFlag b = false) :
    ∃ ws : List ByteWrite, ws.map ByteWrite.sent = sent ∧ answersOf ws = answers ∧ (∀ w ∈ ws, w.wait.ok = true)
      ∧ delayUnits (traceOf ws) = (6 * sent.length, 0) := by
  induction sent generalizing answers with
  | nil => exact ⟨[], rfl, (List.length_eq_zero_iff.mp hlength).symm, nofun, rfl⟩
  | cons p sent ih =>
    cases answers with
    | nil => cases hlength
    | cons b answers =>
      obtain ⟨hb, hready⟩ := List.forall_mem_cons.mp hready
      obtain ⟨ws, hsent, hanswers, hok, hunits⟩ := ih (Nat.succ.inj hlength) hready
      refine ⟨⟨p.1, p.2, ⟨[], b⟩⟩ :: ws, congrArg (p :: ·) hsent, congrArg (b :: ·) hanswers,
        List.forall_mem_cons.mpr ⟨?_, hok⟩, ?_⟩
      · simp [Wait.ok, hb]
      · have hfirst : delayUnits (traceOf [⟨p.1, p.2, ⟨[], b⟩⟩]) = (6, 0) := delayUnits_traceOf _
        rw [← List.singleton_append, traceOf_append, delayUnits_append, hfirst, hunits, List.length_cons, Nat.mul_succ,
          Nat.add_comm]
        rfl

/-- `initializeLcd` with one poll a wait: 3 for the leading wait and 6 for each of its five bytes (R136). -/
theorem initializeLcd_delays {s : State} {answers rest : List Byte} (hl : s.env.lcd.latch = none)
    (hi : s.pinsIdle = true) (hlength : answers.length = 6) (hready : ∀ b ∈ answers, busyFlag b = false)
    (hp : s.env.lcdParty = .oracle (answers ++ rest)) :
    ∃ u, Completes .initializeLcd s u ∧ Delays s u 33 0 := by
  cases answers with
  | nil => cases hlength
  | cons b answers =>
    obtain ⟨hb, hready⟩ := List.forall_mem_cons.mp hready
    obtain ⟨ws, hsent, rfl, hok, hunits⟩ :=
      exists_writes_of_ready_answers (sent := sends .initializeLcd) (Nat.succ.inj hlength) hready
    have hlead : (Wait.mk [] b).ok = true := by simp [Wait.ok, hb]
    refine ⟨_, initializeRunsTheFixedSequence s ⟨[], b⟩ ws rest hi hl hlead hok hsent hp,
      delays_of_trace (List.append_assoc _ _ _) ?_⟩
    rw [delayUnits_append, delayUnits_waitTrace, hunits]
    rfl

/-! ### The scan cycle -/

/-- A cycle with no key in its row (R173). -/
theorem emptyRow_delays {s : State} {raw : Byte} {rest : List Byte} (hl : s.env.lcd.latch = none)
    (hraw : columnMask raw = 0#5) (hp : s.env.keyParty = .oracle (raw :: rest)) :
    ∃ u, Completes .scanCycle s u ∧ Delays s u 0 0 := by
  obtain ⟨m, n, hcycle⟩ := scanOfAnEmptyRow s raw rest hl hraw hp
  exact ⟨_, hcycle, delays_of_trace rfl rfl⟩

/-- A cycle that rejects after the full window, on no column or on several (R165, R166). -/
theorem rejected_delays {s : State} {first : Byte} {held : List Byte} {last : Byte} {rest : List Byte}
    (hl : s.env.lcd.latch = none) (hfirst : columnMask first ≠ 0#5) (hheld : ∀ w ∈ held, columnMask w ≠ 0#5)
    (hlength : held.length = 99) (hp : s.env.keyParty = .oracle (first :: held ++ last :: rest))
    (hmask : singleMask (columnMask last) = false) :
    ∃ u, Completes .scanCycle s u ∧ Delays s u 0 100 := by
  refine ⟨_, rejected_completes hl hfirst hheld (by omega) (.inr hlength) hmask hp,
    delays_of_trace (added := [.row (onehot5 s.row), .col (columnMask first)] ++ resampleTrace (held ++ [last])
      ++ [.row 0#5]) ?_ ?_⟩
  · simp [State.rowHeld, State.rowOpened, State.resampled, State.rowClosed]
  · simp [hlength]

/-- A cycle that accepts a key: the 100 re-samples of the confirmation loop, the collaborator's writes, and the 100
zeros of the release-confirmation loop with what came before them (R165 to R170). -/
theorem accepted_delays {s : State} {first : Byte} {held : List Byte} {last : Byte} {col : Fin 5}
    {ws : List ByteWrite} {lcdRest before zeros more : List Byte} (hl : s.env.lcd.latch = none)
    (hfirst : columnMask first ≠ 0#5) (hheld : ∀ w ∈ held, columnMask w ≠ 0#5) (hlength : held.length = 99)
    (hp : s.env.keyParty = .oracle (first :: held ++ last :: (before ++ zeros ++ more)))
    (hlast : columnMask last = 1#5 <<< col.val)
    (hcalls : ∀ c ∈ dispatchProgram s.env.dispatch (5 * s.row.val + col.val), isWriteCall c = true)
    (hready : dispatchProgram s.env.dispatch (5 * s.row.val + col.val) ≠ [] →
      s.pinsIdle = true ∧ s.lcdst ≠ .uninitialized)
    (hsent : ws.map ByteWrite.sent = (dispatchProgram s.env.dispatch (5 * s.row.val + col.val)).flatMap sends)
    (hws : ∀ w ∈ ws, w.wait.ok = true) (hlcd : s.env.lcdParty = .oracle (answersOf ws ++ lcdRest))
    (hrelease : EndsRelease before zeros) :
    ∃ (u : State) (n : Nat), Completes .scanCycle s u ∧ Delays s u (busUnits (traceOf ws)) n ∧ 200 ≤ n := by
  obtain ⟨-, hcompletes⟩ := scanOfAHeldKeyDispatchesItsCode s first held last (before ++ zeros ++ more) col hl hfirst
    hheld hlength hlast hp
  obtain ⟨m, c, hcycle⟩ := hcompletes ws lcdRest before zeros more hcalls hready hsent hws hlcd rfl hrelease.going
    hrelease.restarted hrelease.length hrelease.quiet
  refine ⟨_, 100 + (before ++ zeros).length, hcycle,
    delays_of_trace (added := [.row (onehot5 s.row), .col (columnMask first)] ++ resampleTrace (held ++ [last])
      ++ [.key (keyCode s.row col)] ++ traceOf ws ++ resampleTrace (before ++ zeros) ++ [.row 0#5]) ?_ ?_, ?_⟩
  · simp only [resampleTrace, List.append_assoc]
  · have hwrites : delayUnits (traceOf ws) = (busUnits (traceOf ws), 0) :=
      Prod.ext rfl (scanUnits_traceOf ws)
    simp [hwrites, hlength]
  · rw [List.length_append, hrelease.length]
    omega

/-- Settles O60, operation by operation. -/
theorem leastDelaysOfTheDriver : Obligations.LeastDelaysOfTheDriver := by
  intro s hl
  refine ⟨?oneWait, ?series, ?fixedSequence, ?emptyRow, ?fullWindow⟩
  case oneWait =>
    intro w rest hi hw hp
    exact ⟨waitReady_delays hl hi hw hp, fun hst => oneByte_delays hl hi hst hw hp⟩
  case series =>
    intro ws rest line text hi hst ht hws hp
    exact series_delays hl hi hst ht hws hp
  case fixedSequence =>
    intro answers rest hi hlength hready hp
    exact initializeLcd_delays hl hi hlength hready hp
  case emptyRow =>
    intro raw rest hraw hp
    exact emptyRow_delays hl hraw hp
  case fullWindow =>
    intro first held last rest hfirst hheld hlength hp
    refine ⟨rejected_delays hl hfirst hheld hlength hp, ?_⟩
    intro col ws lcdRest before zeros more hlast hrest hcalls hready hsent hws hlcd hgoing hrestarted hzeros hquiet
    subst hrest
    exact accepted_delays hl hfirst hheld hlength hp hlast hcalls hready hsent hws hlcd
      ⟨hgoing, hrestarted, hzeros, hquiet⟩

end Sys2Proof.Machine
